-- ==== Sys2Proof/Word.lean ====
section
/-!
DEFINITION. The word types of the Z4 and their plainest arithmetic (R12, R25, R26): bytes, 32-bit
words, 64-bit words and 96-lane masks, and the fields of a word.
-/
namespace Sys2Proof

/-- A byte of any memory. -/
abbrev Byte := BitVec 8

/-- A 32-bit register, lane element or memory word. -/
abbrev Word := BitVec 32

/-- A 64-bit instruction word, literal, address pair or table entry. -/
abbrev DWord := BitVec 64

/-- One bit for each of the 96 lanes of a group, bit L for lane L (R14, R87). -/
abbrev LaneMask := BitVec 96

/-- The number of lanes of a group (R4). -/
abbrev lanesPerGroup : Nat := 96

/-- Bits [hi:lo] of a word as a number. -/
def bits {n : Nat} (w : BitVec n) (hi lo : Nat) : Nat := (w.toNat >>> lo) % 2 ^ (hi + 1 - lo)

/-- Bit i of a word. -/
def bit {n : Nat} (w : BitVec n) (i : Nat) : Bool := w.getLsbD i

/-- 1 for true and 0 for false. -/
def bool01 {n : Nat} (b : Bool) : BitVec n := if b then 1 else 0

end Sys2Proof
end

