-- ==== Sys2Proof/Machine/Flags.lean ====
section
/-!
DEFINITION. The codes and flags the spec numbers: STAT flags (R91), trap causes (R62), batch status
bits (R197), and the integer and floating comparison conditions (R105, R107).
-/
namespace Sys2Proof.Machine

/-- STAT.JLOST: a rejoin register released partially (R91). -/
abbrev statJLOST : Word := 1
/-- STAT.SCUF: a drain scale was clamped (R91). -/
abbrev statSCUF : Word := 2
/-- STAT.NXOVF: an STCMP pointer wrapped (R91). -/
abbrev statNXOVF : Word := 4
/-- STAT.PADSW: a split entered the paddock (R91). -/
abbrev statPADSW : Word := 8
/-- STAT.RBACK: the block was rolled back (R91). -/
abbrev statRBACK : Word := 16
/-- STAT.CVUNH: the group was unhitched (R91). -/
abbrev statCVUNH : Word := 32

/-- A W1C write of STAT clears each written bit and keeps the rest (R133). -/
def statW1C (stat w : Word) : Word := stat &&& ~~~w

/-- Trap causes (R62). -/
abbrev cILLEGAL : Nat := 0x01
abbrev cPRIV : Nat := 0x02
abbrev cALIGN : Nat := 0x03
abbrev cSPADBOUND : Nat := 0x04
abbrev cHANDLE : Nat := 0x05
abbrev cSEALED : Nat := 0x06
abbrev cPOISON : Nat := 0x07
abbrev cBADCMD : Nat := 0x08
abbrev cMATRIXCHK : Nat := 0x09
abbrev cBATCHERR : Nat := 0x0A
abbrev cCHANNEL : Nat := 0x0B
abbrev cTASKDEPTH : Nat := 0x0C
abbrev cBKPT : Nat := 0x0D
abbrev cSOFTTRAP : Nat := 0x0E
abbrev cSTEP : Nat := 0x0F
abbrev cDOUBLE : Nat := 0x10
abbrev cSPLITOVF : Nat := 0x11
abbrev cPREEMPT : Nat := 0x12

/-- Batch status bits (R197). -/
abbrev bsDONE : Word := 0x01
abbrev bsERROR : Word := 0x02
abbrev bsNONRES : Word := 0x04
abbrev bsPOISON : Word := 0x08
abbrev bsTIMEOUT : Word := 0x10
abbrev bsCANCELLED : Word := 0x20
abbrev bsNOTMADE : Word := 0x40
abbrev bsUNKNOWN : Word := 0x80
abbrev bsREPORTED : Word := 0x100
/-- The bits for which a BWAIT with te = 1 traps (R196): ERROR, NONRES, POISON, TIMEOUT, CANCELLED. -/
abbrev bsBAD : Word := 0x3E

/-- The integer comparisons of R105 and R124: equal, not equal, less and at most, signed, less and
at most, unsigned. -/
inductive ICmp where
  | eq | ne | lt | le | ltu | leu
deriving DecidableEq, Repr

/-- An integer comparison of two w-bit elements. -/
def ICmp.holds {w : Nat} (c : ICmp) (a b : BitVec w) : Bool :=
  match c with
  | .eq => a == b
  | .ne => a != b
  | .lt => BitVec.slt a b
  | .le => BitVec.sle a b
  | .ltu => BitVec.ult a b
  | .leu => BitVec.ule a b

end Sys2Proof.Machine
end

