-- ==== Sys2Proof/Machine/Tbl.lean ====
section
/-!
DEFINITION. Sparse tables: lists of (key, value) pairs with strictly rising keys. Every memory,
register file and table of the machine is one. A table with a default lists no entry equal to its
default, so that equal contents are equal data.
-/
namespace Sys2Proof.Machine

/-- A sparse table keyed by a number. -/
abbrev Tbl (α : Type) := List (Nat × α)

/-- What key `n` holds; an unlisted key holds the default `d`. -/
def tget {α : Type} (d : α) : Tbl α → Nat → α
  | [], _ => d
  | (k, v) :: t, n => if n = k then v else tget d t n

/-- The entry of key `n` in a table without a default. -/
def tfind? {α : Type} : Tbl α → Nat → Option α
  | [], _ => none
  | (k, v) :: t, n => if n = k then some v else tfind? t n

/-- Key `n` made to hold `x` in a table without a default, keys kept rising. -/
def tput {α : Type} : Tbl α → Nat → α → Tbl α
  | [], n, x => [(n, x)]
  | (k, v) :: t, n, x =>
    if n < k then (n, x) :: (k, v) :: t
    else if n = k then (n, x) :: t
    else (k, v) :: tput t n x

/-- Key `n` removed. -/
def tdel {α : Type} (t : Tbl α) (n : Nat) : Tbl α := t.filter fun kv => kv.1 != n

/-- Key `n` made to hold `x`; storing the default unlists the key. -/
def tset {α : Type} [DecidableEq α] (d : α) (t : Tbl α) (n : Nat) (x : α) : Tbl α :=
  if x = d then tdel t n else tput t n x

/-- The keys rise strictly from above `lo`, and no entry equals the default. -/
def twfFrom {α : Type} [DecidableEq α] (d : α) : Nat → Tbl α → Bool
  | _, [] => true
  | lo, (k, v) :: t => decide (lo ≤ k) && !decide (v = d) && twfFrom d (k + 1) t

/-- The canonical form of a table with default `d`. -/
def twf {α : Type} [DecidableEq α] (d : α) (t : Tbl α) : Bool := twfFrom d 0 t

/-- The value of key `n` changed by `f`; an absent key stays absent. -/
def tmod {α : Type} : Tbl α → Nat → (α → α) → Tbl α
  | [], _, _ => []
  | (k, v) :: t, n, f => if n = k then (k, f v) :: t else (k, v) :: tmod t n f

/-- The least number below `hi`, from `lo` up, that satisfies `p`. -/
def leastFrom (p : Nat → Bool) : Nat → Nat → Option Nat
  | _, 0 => none
  | lo, fuel + 1 => if p lo then some lo else leastFrom p (lo + 1) fuel

/-- The numbers `lo`, `lo + 1`, …, `n` of them. -/
def rangeFrom : Nat → Nat → List Nat
  | _, 0 => []
  | lo, n + 1 => lo :: rangeFrom (lo + 1) n

end Sys2Proof.Machine
end

