-- ==== Sys2Proof/Syntax.lean ====
section
/-!
DEFINITION. The instructions of the Z4: one constructor for each row of spec/opcode_table.json. An
encoded instruction carries the fields of its format (R44, R47, R49, R50, R51); an engine command
names the core that holds it and its number among the core's accepted commands; an event carries
the numbers of the things it happens to. A core is numbered 64 × die + 4 × cluster + core, a
cluster 16 × die + cluster, a function 0 to 63 for a VF and 64 for the PF.
-/
namespace Sys2Proof

/-- Format V (R44), with the KM and LX fields of R38 and the literal of R46 (0 when LX = 0). -/
structure FmtV where
  lx : BitVec 1
  km : BitVec 3
  vd : BitVec 7
  va : BitVec 7
  vb : BitVec 7
  vc : BitVec 7
  ty : BitVec 4
  rm : BitVec 3
  sat : BitVec 1
  bsc : BitVec 1
  csc : BitVec 1
  ng : BitVec 2
  imm8 : BitVec 8
  lit : BitVec 64
deriving DecidableEq, Repr, Inhabited

/-- Format S (R47), with KM, LX and the literal of R48 (0 when LX = 0). -/
structure FmtS where
  lx : BitVec 1
  km : BitVec 3
  sd : BitVec 6
  sa : BitVec 6
  sb : BitVec 6
  imm : BitVec 1
  imm29 : BitVec 29
  lit : BitVec 64
deriving DecidableEq, Repr, Inhabited

/-- Format B (R49), with KM and LX. -/
structure FmtB where
  lx : BitVec 1
  km : BitVec 3
  sa : BitVec 6
  kc : BitVec 3
  jr : BitVec 3
  hint : BitVec 1
  neg : BitVec 1
  imm10 : BitVec 10
  off24 : BitVec 24
deriving DecidableEq, Repr, Inhabited

/-- Format M (R50), with KM and LX. -/
structure FmtM where
  lx : BitVec 1
  km : BitVec 3
  vds : BitVec 7
  sbase : BitVec 6
  voff : BitVec 7
  nov : BitVec 1
  sz : BitVec 3
  scope : BitVec 4
  imm20 : BitVec 20
deriving DecidableEq, Repr, Inhabited

/-- Format E (R51), with KM and LX. -/
structure FmtE where
  lx : BitVec 1
  km : BitVec 3
  sa : BitVec 6
  sb : BitVec 6
  sd : BitVec 6
  ch : BitVec 6
  q : BitVec 8
  imm16 : BitVec 16
deriving DecidableEq, Repr, Inhabited

/-- Every instruction, engine command and event of the opcode table. -/
inductive Instr where
  /-- NOP (R129). Issues alone and has no effect. -/
  | nop (f : FmtE)
  /-- BKPT (R130). Traps BKPT with IMM16 in TRAPINFO, or stops at a claiming debugger. -/
  | bkpt (f : FmtE)
  /-- TRAP (R130). Traps SOFTTRAP with IMM16 in TRAPINFO. -/
  | trap (f : FmtE)
  /-- TRET (R167). Ends every handler split, restores the frozen splits and the rejoin registers, and resumes the faulting split; outside a trap split it traps PRIV. -/
  | tret (f : FmtE)
  /-- YIELD (R131). Ends the issuing split's claim on its lane pipe until another split of the group issues or 64 cycles pass. -/
  | yield (f : FmtE)
  /-- ICINV (R132). Discards the issuing core's fetched copies of every 64-byte block that overlaps the given range. -/
  | icinv (f : FmtE)
  /-- SREAD (R133). Writes the value of the special register named by IMM16 to a scalar register. -/
  | sread (f : FmtE)
  /-- SWRITE (R133). Writes a scalar register to the special register named by IMM16, with W1C, CVM and read-only rules. -/
  | swrite (f : FmtE)
  /-- BRA (R134). Branches the issuing split to the label. -/
  | bra (f : FmtB)
  /-- BSC (R134). Branches the whole split when a scalar register is nonzero, inverted by NEG. -/
  | bsc (f : FmtB)
  /-- BSZ (R134). Branches the whole split when no active lane has its bit set in k[KC], inverted by NEG. -/
  | bsz (f : FmtB)
  /-- BDIV (R135). Divides the split's active lanes by a mask into a taken and a fall-through split, or branches whole. -/
  | bdiv (f : FmtB)
  /-- BDIVX (R136). Divides the split's active lanes by per-lane target offsets into one split per distinct target. -/
  | bdivx (f : FmtB)
  /-- CALL (R134). Saves the address of the next word in a register pair and branches to the label. -/
  | call (f : FmtB)
  /-- RET (R137). Branches to the address in a register pair and marks the transfer as a return. -/
  | ret (f : FmtB)
  /-- JMPI (R137). Branches to the address in a register pair, trapping ALIGN on a misaligned target. -/
  | jmpi (f : FmtB)
  /-- RJSET (R155). Arms a rejoin register with the split's exec and fmt, after a partial release when it has waiters. -/
  | rjset (f : FmtB)
  /-- RJOIN (R156). Records the split's lanes as arrived at a rejoin register and makes the split wait, then evaluates the registers. -/
  | rjoin (f : FmtB)
  /-- RJPEEK (R157). Reads 32 bits of a rejoin register's ARRIVED field into a scalar register. -/
  | rjpeek (f : FmtB)
  /-- BAR (R138). Marks the split as arrived at the block barrier; splits merge when every live split has arrived. -/
  | bar (f : FmtB)
  /-- EXIT (R139). Ends every lane of the split's domain and frees its entry; the last exit ends the group. -/
  | exit (f : FmtB)
  /-- SADD (R124). Scalar add modulo 2^32. -/
  | sadd (f : FmtS)
  /-- SSUB (R124). Scalar subtract modulo 2^32. -/
  | ssub (f : FmtS)
  /-- SMUL (R124). Low 32 bits of a scalar product. -/
  | smul (f : FmtS)
  /-- SMULH (R124). High 32 bits of the signed scalar product. -/
  | smulh (f : FmtS)
  /-- SMULHU (R124). High 32 bits of the unsigned scalar product. -/
  | smulhu (f : FmtS)
  /-- SAND (R124). Scalar bitwise AND. -/
  | sand (f : FmtS)
  /-- SOR (R124). Scalar bitwise OR. -/
  | sor (f : FmtS)
  /-- SXOR (R124). Scalar bitwise XOR. -/
  | sxor (f : FmtS)
  /-- SANDN (R124). Scalar a AND NOT b. -/
  | sandn (f : FmtS)
  /-- SSHL (R124). Scalar shift left by b[4:0]. -/
  | sshl (f : FmtS)
  /-- SSHR (R124). Scalar logical shift right by b[4:0]. -/
  | sshr (f : FmtS)
  /-- SSAR (R124). Scalar arithmetic shift right by b[4:0]. -/
  | ssar (f : FmtS)
  /-- SROT (R124). Scalar rotate left by b[4:0]. -/
  | srot (f : FmtS)
  /-- SMIN (R124). Scalar signed minimum. -/
  | smin (f : FmtS)
  /-- SMAX (R124). Scalar signed maximum. -/
  | smax (f : FmtS)
  /-- SMINU (R124). Scalar unsigned minimum. -/
  | sminu (f : FmtS)
  /-- SMAXU (R124). Scalar unsigned maximum. -/
  | smaxu (f : FmtS)
  /-- SMOV (R124). Copies operand b to a scalar register. -/
  | smov (f : FmtS)
  /-- SLI_SHORT (R125). Loads a sign-extended 29-bit immediate into a scalar register. -/
  | sliShort (f : FmtS)
  /-- SLI_LONG (R125). Loads a 64-bit literal into an even-odd scalar register pair. -/
  | sliLong (f : FmtS)
  /-- SLIH (R124). Replaces the high half of a register with b[15:0], keeping a's low half. -/
  | slih (f : FmtS)
  /-- SCEQ (R124). Writes 1 if a equals b, else 0. -/
  | sceq (f : FmtS)
  /-- SCNE (R124). Writes 1 if a differs from b, else 0. -/
  | scne (f : FmtS)
  /-- SCLT (R124). Writes 1 if a is less than b, signed. -/
  | sclt (f : FmtS)
  /-- SCLE (R124). Writes 1 if a is at most b, signed. -/
  | scle (f : FmtS)
  /-- SCLTU (R124). Writes 1 if a is less than b, unsigned. -/
  | scltu (f : FmtS)
  /-- SCLEU (R124). Writes 1 if a is at most b, unsigned. -/
  | scleu (f : FmtS)
  /-- SSEL (R124). Writes a if the old destination is nonzero, else b. -/
  | ssel (f : FmtS)
  /-- SPOPC (R124). Counts the one bits of a. -/
  | spopc (f : FmtS)
  /-- SCLZ (R124). Counts the leading zero bits of a. -/
  | sclz (f : FmtS)
  /-- SFFS (R124). Finds the index of the lowest one bit of a. -/
  | sffs (f : FmtS)
  /-- KAND (R128). Mask AND in taking-part domain lanes. -/
  | kand (f : FmtV)
  /-- KOR (R128). Mask OR in taking-part domain lanes. -/
  | kor (f : FmtV)
  /-- KXOR (R128). Mask XOR in taking-part domain lanes. -/
  | kxor (f : FmtV)
  /-- KANDN (R128). Mask AND NOT in taking-part domain lanes. -/
  | kandn (f : FmtV)
  /-- KNOT (R128). Mask NOT in taking-part domain lanes. -/
  | knot (f : FmtV)
  /-- KMOV (R128). Mask copy in taking-part domain lanes. -/
  | kmov (f : FmtV)
  /-- KFROMS (R128). Sets 32 mask bits from a scalar or literal. -/
  | kfroms (f : FmtV)
  /-- KTOS (R128). Copies 32 bits of a mask register to a scalar register. -/
  | ktos (f : FmtV)
  /-- KPOPC (R128). Counts participants whose mask bit is set. -/
  | kpopc (f : FmtV)
  /-- KFIRST (R128). Finds the lowest participant whose mask bit is set, or 96. -/
  | kfirst (f : FmtV)
  /-- VADD (R100). Per-lane integer add. -/
  | vadd (f : FmtV)
  /-- VSUB (R100). Per-lane integer subtract. -/
  | vsub (f : FmtV)
  /-- VMUL (R100). Per-lane low product. -/
  | vmul (f : FmtV)
  /-- VMULH (R100). Per-lane high signed product. -/
  | vmulh (f : FmtV)
  /-- VMULHU (R100). Per-lane high unsigned product. -/
  | vmulhu (f : FmtV)
  /-- VMAD (R100). Per-lane low bits of a times b plus c. -/
  | vmad (f : FmtV)
  /-- VMIN (R100). Per-lane signed minimum. -/
  | vmin (f : FmtV)
  /-- VMAX (R100). Per-lane signed maximum. -/
  | vmax (f : FmtV)
  /-- VMINU (R100). Per-lane unsigned minimum. -/
  | vminu (f : FmtV)
  /-- VMAXU (R100). Per-lane unsigned maximum. -/
  | vmaxu (f : FmtV)
  /-- VABS (R100). Per-lane absolute value modulo 2^w. -/
  | vabs (f : FmtV)
  /-- VNEG (R100). Per-lane negation modulo 2^w. -/
  | vneg (f : FmtV)
  /-- VSADD (R100). Per-lane saturating signed add. -/
  | vsadd (f : FmtV)
  /-- VSSUB (R100). Per-lane saturating signed subtract. -/
  | vssub (f : FmtV)
  /-- VSADDU (R100). Per-lane saturating unsigned add. -/
  | vsaddu (f : FmtV)
  /-- VSSUBU (R100). Per-lane saturating unsigned subtract. -/
  | vssubu (f : FmtV)
  /-- VAND (R100). Per-lane bitwise AND. -/
  | vand (f : FmtV)
  /-- VOR (R100). Per-lane bitwise OR. -/
  | vor (f : FmtV)
  /-- VXOR (R100). Per-lane bitwise XOR. -/
  | vxor (f : FmtV)
  /-- VANDN (R100). Per-lane a AND NOT b. -/
  | vandn (f : FmtV)
  /-- VNOT (R100). Per-lane bitwise NOT. -/
  | vnot (f : FmtV)
  /-- VSHL (R101). Per-lane shift left. -/
  | vshl (f : FmtV)
  /-- VSHR (R101). Per-lane logical shift right. -/
  | vshr (f : FmtV)
  /-- VSAR (R101). Per-lane arithmetic shift right. -/
  | vsar (f : FmtV)
  /-- VROT (R101). Per-lane rotate left. -/
  | vrot (f : FmtV)
  /-- VCLZ (R100). Per-lane leading zero count. -/
  | vclz (f : FmtV)
  /-- VPOPC (R100). Per-lane population count. -/
  | vpopc (f : FmtV)
  /-- VBREV (R100). Per-lane bit reversal. -/
  | vbrev (f : FmtV)
  /-- VBFX (R102). Per-lane bit-field extract, zero- or sign-extended. -/
  | vbfx (f : FmtV)
  /-- VBFI (R102). Per-lane bit-field insert. -/
  | vbfi (f : FmtV)
  /-- VSEL (R103). Per-lane select of a or b by a mask register. -/
  | vsel (f : FmtV)
  /-- VMOV (R103). Per-lane copy of operand b. -/
  | vmov (f : FmtV)
  /-- VMOVS (R104). Copies one non-helper taking-part lane's value to a scalar register. -/
  | vmovs (f : FmtV)
  /-- VCEQ (R105). Sets mask bits where a equals b. -/
  | vceq (f : FmtV)
  /-- VCNE (R105). Sets mask bits where a differs from b. -/
  | vcne (f : FmtV)
  /-- VCLT (R105). Sets mask bits where a is less than b, signed. -/
  | vclt (f : FmtV)
  /-- VCLE (R105). Sets mask bits where a is at most b, signed. -/
  | vcle (f : FmtV)
  /-- VCLTU (R105). Sets mask bits where a is less than b, unsigned. -/
  | vcltu (f : FmtV)
  /-- VCLEU (R105). Sets mask bits where a is at most b, unsigned. -/
  | vcleu (f : FmtV)
  /-- VFCEQ (R107). Sets mask bits where floats compare equal, ordered. -/
  | vfceq (f : FmtV)
  /-- VFCLT (R107). Sets mask bits where a is less than b, ordered. -/
  | vfclt (f : FmtV)
  /-- VFCLE (R107). Sets mask bits where a is at most b, ordered. -/
  | vfcle (f : FmtV)
  /-- VFCUN (R107). Sets mask bits where a or b is a NaN. -/
  | vfcun (f : FmtV)
  /-- VFCLASS (R107). Sets mask bits where the class of a is in a class set. -/
  | vfclass (f : FmtV)
  /-- VFADD (R108). Per-lane float add, rounded once. -/
  | vfadd (f : FmtV)
  /-- VFSUB (R108). Per-lane float subtract, rounded once. -/
  | vfsub (f : FmtV)
  /-- VFMUL (R108). Per-lane float multiply, rounded once. -/
  | vfmul (f : FmtV)
  /-- VFMA (R109). Per-lane fused a times b plus c. -/
  | vfma (f : FmtV)
  /-- VFMS (R109). Per-lane fused a times b minus c. -/
  | vfms (f : FmtV)
  /-- VFNMA (R109). Per-lane fused negated product minus c. -/
  | vfnma (f : FmtV)
  /-- VFNMS (R109). Per-lane fused negated product plus c. -/
  | vfnms (f : FmtV)
  /-- VFMIN (R110). Per-lane float minimum, canonical NaN on any NaN. -/
  | vfmin (f : FmtV)
  /-- VFMAX (R110). Per-lane float maximum, canonical NaN on any NaN. -/
  | vfmax (f : FmtV)
  /-- VFABS (R111). Clears the sign bit. -/
  | vfabs (f : FmtV)
  /-- VFNEG (R111). Inverts the sign bit. -/
  | vfneg (f : FmtV)
  /-- VFCPYS (R111). Takes a's magnitude with b's sign bit. -/
  | vfcpys (f : FmtV)
  /-- VFRINT (R112). Rounds to an integral value of the same format. -/
  | vfrint (f : FmtV)
  /-- VRCP (R113). Correctly rounded reciprocal. -/
  | vrcp (f : FmtV)
  /-- VRSQ (R113). Correctly rounded reciprocal square root. -/
  | vrsq (f : FmtV)
  /-- VSQRT (R113). Square root rounded under RM. -/
  | vsqrt (f : FmtV)
  /-- VDIV (R113). Division rounded under RM. -/
  | vdiv (f : FmtV)
  /-- VEXP2 (R113). Correctly rounded 2^a. -/
  | vexp2 (f : FmtV)
  /-- VLOG2 (R113). Correctly rounded base-2 logarithm. -/
  | vlog2 (f : FmtV)
  /-- VSIN (R113). Correctly rounded sine of pi times a. -/
  | vsin (f : FmtV)
  /-- VCOS (R113). Correctly rounded cosine of pi times a. -/
  | vcos (f : FmtV)
  /-- VTANH (R113). Correctly rounded hyperbolic tangent. -/
  | vtanh (f : FmtV)
  /-- VSIGM (R113). Correctly rounded logistic sigmoid. -/
  | vsigm (f : FmtV)
  /-- VCVT (R116). Converts between the permitted lane types. -/
  | vcvt (f : FmtV)
  /-- VPACK (R116). Packs two 32-bit values into two 16-bit elements. -/
  | vpack (f : FmtV)
  /-- VUNPK (R116). Widens one 16-bit element to 32 bits. -/
  | vunpk (f : FmtV)
  /-- QSWAPX (R118). Exchanges values between lanes L and L xor 1. -/
  | qswapx (f : FmtV)
  /-- QSWAPY (R118). Exchanges values between lanes L and L xor 2. -/
  | qswapy (f : FmtV)
  /-- QSWAPD (R118). Exchanges values between lanes L and L xor 3. -/
  | qswapd (f : FmtV)
  /-- QBCAST (R118). Broadcasts one lane of each quad to its quad. -/
  | qbcast (f : FmtV)
  /-- VSHFL (R118). Each participant fetches the lane indexed by b. -/
  | vshfl (f : FmtV)
  /-- VSHFLUP (R118). Each participant fetches lane L minus n. -/
  | vshflup (f : FmtV)
  /-- VSHFLDN (R118). Each participant fetches lane L plus n. -/
  | vshfldn (f : FmtV)
  /-- VBCAST (R118). Broadcasts one lane, or the lowest participant, to every participant. -/
  | vbcast (f : FmtV)
  /-- VREDU (R120). Reduces over participants in lane order and writes the result to every participant. -/
  | vredu (f : FmtV)
  /-- VSCAN (R120). Inclusive or exclusive scan over participants in lane order. -/
  | vscan (f : FmtV)
  /-- VBALLOT (R121). Gives each participant 32 bits of the ballot of nonzero participants. -/
  | vballot (f : FmtV)
  /-- VCOMP (R122). Compacts the values of masked participants into the lowest participants. -/
  | vcomp (f : FmtV)
  /-- LDS (R176). Per-lane load from scratchpad or a handle buffer. -/
  | lds (f : FmtM)
  /-- STS (R176). Per-lane store to scratchpad or a handle buffer through the store queue. -/
  | sts (f : FmtM)
  /-- LDU (R177). Uniform load into scalar registers. -/
  | ldu (f : FmtM)
  /-- STU (R177). Uniform store of scalar registers through the store queue. -/
  | stu (f : FmtM)
  /-- LDRES (R178). Loads and reserves each participant's 8-byte granule. -/
  | ldres (f : FmtM)
  /-- STCND (R178). Stores where the lane's reservation holds and writes a per-lane status. -/
  | stcnd (f : FmtM)
  /-- STCMP (R180). Appends participants' values to a queue through its pointer word and returns the count. -/
  | stcmp (f : FmtM)
  /-- AADD (R181). Scratchpad atomic add returning the old value. -/
  | aadd (f : FmtM)
  /-- ASUB (R181). Scratchpad atomic subtract. -/
  | asub (f : FmtM)
  /-- AMIN (R181). Scratchpad atomic signed minimum. -/
  | amin (f : FmtM)
  /-- AMAX (R181). Scratchpad atomic signed maximum. -/
  | amax (f : FmtM)
  /-- AMINU (R181). Scratchpad atomic unsigned minimum. -/
  | aminu (f : FmtM)
  /-- AMAXU (R181). Scratchpad atomic unsigned maximum. -/
  | amaxu (f : FmtM)
  /-- AAND (R181). Scratchpad atomic AND. -/
  | aand (f : FmtM)
  /-- AOR (R181). Scratchpad atomic OR. -/
  | aor (f : FmtM)
  /-- AXOR (R181). Scratchpad atomic XOR. -/
  | axor (f : FmtM)
  /-- AXCHG (R181). Scratchpad atomic exchange. -/
  | axchg (f : FmtM)
  /-- ACAS (R182). Scratchpad atomic compare and swap. -/
  | acas (f : FmtM)
  /-- AFADD (R183). Scratchpad atomic F32 add, RNE. -/
  | afadd (f : FmtM)
  /-- FENCE (R184). Waits for the group's earlier loads and stores, and at cluster scope or wider orders later commands after earlier ones. -/
  | fence (f : FmtM)
  /-- SEAL (R185). Seals a scratchpad range, or with scope 4 or 5 a global range, after draining writes to it. -/
  | fseal (f : FmtM)
  /-- UNSEAL (R185). Removes the block's oldest matching seal entry, scratchpad or global. -/
  | funseal (f : FmtM)
  /-- PUSH (R191). Checks a 16-word command and hands it to an engine queue, or reports a full queue. -/
  | push (f : FmtE)
  /-- BCLOSE (R195). Closes the group's unclosed commands into the next batch number. -/
  | bclose (f : FmtE)
  /-- BWAIT (R196). Waits until a batch and all before it are complete, optionally trapping on error status. -/
  | bwait (f : FmtE)
  /-- BSTAT (R197). Returns the status word of a batch. -/
  | bstat (f : FmtE)
  /-- WAITC (R200). Waits until the T, S, R and P counters are at or below their immediates. -/
  | waitc (f : FmtE)
  /-- RESID (R202). Sets mask bits of lanes whose element touches a non-resident scratchpad line. -/
  | resid (f : FmtE)
  /-- SEND (R206). Sends scalar words as a message to a channel of a named core. -/
  | send (f : FmtE)
  /-- SENDV (R206). Sends one word per participant as a message to a channel. -/
  | sendv (f : FmtE)
  /-- RECV (R206). Posts a receive on a channel, binding it, to be filled into scalar registers. -/
  | recv (f : FmtE)
  /-- RECVT (R206). Receives a present message at once or returns a zero count. -/
  | recvt (f : FmtE)
  /-- RECVV (R206). Posts a receive to be filled into a vector register of the participants. -/
  | recvv (f : FmtE)
  /-- AMSG (R209). Sends an active message to a handler index of a grid's table on a named core. -/
  | amsg (f : FmtE)
  /-- SPAWN (R230). Checks a task descriptor and creates a queued task, returning its handle. -/
  | spawn (f : FmtE)
  /-- COMMIT (R231). Moves a task to committed and exposes its interval. -/
  | commit (f : FmtE)
  /-- TJOIN (R232). Waits until a task has ended, writes its status and frees its entry. -/
  | tjoin (f : FmtE)
  /-- TSTAT (R232). Returns the status of a task. -/
  | tstat (f : FmtE)
  /-- HGIVE (R250). Gives a held handle into a handle queue of a gang block after draining writes through it. -/
  | hgive (f : FmtE)
  /-- HGIVE_MAKE (R250). Makes a buffer of the block's allocation and gives its new handle into a handle queue. -/
  | hgiveMake (f : FmtE)
  /-- HTAKE (R251). Waits for and takes the oldest handle of one of the block's handle queues. -/
  | htake (f : FmtE)
  /-- HTAKET (R251). Takes the oldest handle of a queue or returns 0 at once. -/
  | htaket (f : FmtE)
  /-- HSTAT (R252). Returns the status of a handle. -/
  | hstat (f : FmtE)
  /-- HDROP (R253). Frees the buffer of a held handle after draining writes through it. -/
  | hdrop (f : FmtE)
  /-- MLOADW (R264). Enters a load of a 64 KiB plane into the shadow plane. -/
  | mloadw (f : FmtE)
  /-- MSWAP (R264). Enters an exchange of the active and shadow planes with their tags. -/
  | mswap (f : FmtE)
  /-- MLOOP (R261). Checks and enters a matrix loop over K-steps into a tile, incrementing T. -/
  | mloop (f : FmtE)
  /-- MDRAIN (R268). Enters a drain of tile rows into an output format and waits for it to complete. -/
  | mdrain (f : FmtE)
  /-- MZERO (R269). Enters a zeroing of a tile. -/
  | mzero (f : FmtE)
  /-- MSTAT (R276). Returns, or returns and clears, a matrix status, engine state or named-cell word. -/
  | mstat (f : FmtE)
  /-- CVJOIN (R298). Creates, joins or rehitches a convoy and waits for the owner die's answer. -/
  | cvjoin (f : FmtE)
  /-- CVLEAVE (R299). Removes the group from its convoy. -/
  | cvleave (f : FmtE)
  /-- COPY (R194). Engine copies a length of bytes between any kinds of address. -/
  | copy (core : Nat) (seq : Nat)
  /-- COPY2D (R194). Engine copies rows with source and destination strides. -/
  | copy2d (core : Nat) (seq : Nat)
  /-- FILL (R194). Engine fills a destination with a repeated 4-byte pattern. -/
  | fill (core : Nat) (seq : Nat)
  /-- GATHER (R194). Engine gathers indexed elements into a contiguous destination. -/
  | gather (core : Nat) (seq : Nat)
  /-- SCATTER (R194). Engine scatters contiguous elements to indexed destinations. -/
  | scatter (core : Nat) (seq : Nat)
  /-- ATOM (R194). Engine performs an atomic at a global target's memory stop and returns the old value. -/
  | atom (core : Nat) (seq : Nat)
  /-- REDUCE (R399). Engine contributes to a reduction written at the root rank. -/
  | reduce (core : Nat) (seq : Nat)
  /-- ALLRED (R399). Engine contributes to a reduction written at every contributor. -/
  | allred (core : Nat) (seq : Nat)
  /-- BCAST (R399). Engine contributes to a broadcast of the root's data. -/
  | bcast (core : Nat) (seq : Nat)
  /-- PAGEREQ (R194). Engine makes the pages of a global range resident. -/
  | pagereq (core : Nat) (seq : Nat)
  /-- TLBINV (R358). Engine removes translation slice entries of an ASID for a range or whole. -/
  | tlbinv (core : Nat) (seq : Nat)
  /-- RCOPY (R403). Engine writes bytes into another device's global memory. -/
  | rcopy (core : Nat) (seq : Nat)
  /-- COMMAND_COMPLETION (R198). A command completes and ORs its status into its batch, completing batches and advancing BATCHDONE. -/
  | commandCompletion (core : Nat) (seq : Nat)
  /-- STORE_PERFORM (R186). The oldest store queue entry performs in the core's total store order. -/
  | storePerform (core : Nat) (slot : Nat)
  /-- REJOIN_RELEASE (R160). After 2 cycles a releasing rejoin register merges its waiters and goes idle. -/
  | rejoinRelease (core : Nat) (slot : Nat) (j : Nat)
  /-- BARRIER_RELEASE (R214). The block barrier releases, restarting the rollback interval and taking urgency ranks. -/
  | barrierRelease (core : Nat) (block : Nat)
  /-- FAIRNESS_DUE (R150). A ready split unissued for 256 cycles becomes due as the primary split. -/
  | fairnessDue (core : Nat) (slot : Nat) (split : Nat)
  /-- PADDOCK_SWAP (R150). Every 256th paddock-timer cycle the oldest resident split swaps with the oldest ready dormant split. -/
  | paddockSwap (core : Nat) (slot : Nat)
  /-- RESERVATION_GRACE_END (R151). After 64 cycles a fairness rule held back by a reservation takes effect. -/
  | reservationGraceEnd (core : Nat) (slot : Nat) (split : Nat)
  /-- SOFT_ERROR_ROLLBACK (R219). An uncorrectable soft error found on a read rolls the block back to its interval start. -/
  | softErrorRollback (core : Nat) (block : Nat)
  /-- MATRIX_TRAP_DELIVERY (R270). A trap posted by the matrix engine is taken at the group's next packet boundary. -/
  | matrixTrapDelivery (core : Nat) (slot : Nat)
  /-- TASK_PLACEMENT (R230). A queued task is placed on the first core with room and starts. -/
  | taskPlacement (core : Nat) (tslot : Nat)
  /-- TASK_STEAL (R237). An idle core takes a queued task record from another core under a lease. -/
  | taskSteal (thief : Nat) (victim : Nat)
  /-- STEAL_ACKNOWLEDGEMENT (R237). The victim accepts the thief's acknowledgement and marks the task running, or NACKs a late one. -/
  | stealAcknowledgement (victim : Nat) (tslot : Nat) (gen : Nat)
  /-- LEASE_EXPIRY (R237). A lease unacknowledged for 65,536 cycles returns the record to the victim's queue. -/
  | leaseExpiry (victim : Nat) (tslot : Nat)
  /-- LAUNCH_TAKE (R375). The device takes a launch record from a queue and checks it, or refuses it. -/
  | launchTake (fn : Nat) (queue : Nat)
  /-- GANG_PLACEMENT (R376). The grid distributor places the next gang of a ready launch on a cluster with room. -/
  | gangPlacement (launch : Nat)
  /-- LAUNCH_END (R375). When every group and command has ended the device releases, writes the job record and raises the end event. -/
  | launchEnd (launch : Nat)
  /-- MESSAGE_ARRIVAL (R207). A message reaches its destination core and enters the channel or backing, waits, or is NACKed. -/
  | messageArrival (core : Nat)
  /-- RECEIVE_FILL (R206). A posted receive at the head of a channel's message is filled with its words and status. -/
  | receiveFill (core : Nat) (slot : Nat) (chan : Nat)
  /-- NACK_ARRIVAL (R208). A NACK enters the sender group's error queue. -/
  | nackArrival (core : Nat)
  /-- AMSG_ARRIVAL (R209). An active message joins the core's active-message queue, backing, or is NACKed. -/
  | amsgArrival (core : Nat)
  /-- HANDLER_START (R209). An active-message handler starts as a group in its own block when it fits. -/
  | handlerStart (core : Nat)
  /-- CONVOY_ANSWER (R298). The owner die's answer to a CVJOIN arrives and sets the status and convoy registers. -/
  | convoyAnswer (die : Nat)
  /-- BOUND_UPDATE (R292). A member's engine receives a new bound and issues held units below it. -/
  | boundUpdate (die : Nat) (cslot : Nat) (member : Nat)
  /-- UNHITCH_TIMEOUT (R293). A member's unhitch timer reaches CVTMO and the member is unhitched with cause 1. -/
  | unhitchTimeout (core : Nat) (slot : Nat)
  /-- FOLD_READ_REQUEST (R280). A read request at a memory stop attaches to an open Fold entry or opens one with a DRAM read. -/
  | foldReadRequest (die : Nat) (stop : Nat)
  /-- DRAM_DATA_ARRIVAL (R280). DRAM data for a Fold entry is decoded and one reply is multicast to every tag. -/
  | dramDataArrival (die : Nat) (stop : Nat) (entry : Nat)
  /-- STOP_WRITE (R281). A write arrives at its memory stop and performs in arrival order. -/
  | stopWrite (die : Nat) (stop : Nat)
  /-- STOP_ATOMIC (R281). An atomic arrives at its memory stop and performs in arrival order. -/
  | stopAtomic (die : Nat) (stop : Nat)
  /-- UNIT_TRANSLATION (R340). A request arriving at the owner die is translated and checked through its slices. -/
  | unitTranslation (die : Nat) (unit : Nat)
  /-- PAGE_WALK_COMPLETE (R341). A page-table walk ends and, if it passes the checks, makes a slice entry. -/
  | pageWalkComplete (die : Nat) (walk : Nat)
  /-- GLOBAL_SEAL_REQUEST (R303). The owner die waits out writes to the range, enters the seal and confirms. -/
  | globalSealRequest (die : Nat) (request : Nat)
  /-- GLOBAL_UNSEAL_REQUEST (R305). The owner die discards uncovered replicas and confirms removal of a seal entry. -/
  | globalUnsealRequest (die : Nat) (request : Nat)
  /-- REPLICA_COPY (R304). The owner die copies a DEVICE-sealed unit into another die's reserve frames. -/
  | replicaCopy (die : Nat) (pa : Nat) (target : Nat)
  /-- OUTPUT_PORT_GRANT (R317). Each output port grants a body flit, a reserved, promoted or round-robin head. -/
  | outputPortGrant (die : Nat) (router : Nat) (port : Nat)
  /-- HEAD_PROMOTION (R320). A waiting head's age reaches AGEMAX and it is promoted. -/
  | headPromotion (die : Nat) (router : Nat) (inport : Nat) (vc : Nat)
  /-- MESHARB_WRITE (R321). System software writes MESHARB, to take effect at the next slot index 0. -/
  | mesharbWrite (die : Nat) (value : Nat)
  /-- MESHARB_APPLY (R321). A written MESHARB takes effect at slot index 0. -/
  | mesharbApply (die : Nat)
  /-- SLOTCMD (R325). System software commits a staging slot table for a router port. -/
  | slotcmd (die : Nat) (value : Nat)
  /-- SLOT_TABLE_REPLACE (R325). At slot index 0 the slot allocator replaces the port's table whole or refuses it. -/
  | slotTableReplace (die : Nat)
  /-- PASS_GRANT (R258). At a pass boundary the arbiter grants the next pass to the eligible loop of highest priority. -/
  | passGrant (cluster : Nat)
  /-- LOOP_PRIORITY_AGING (R258). A loop waiting 65,536 cycles since acceptance counts as priority 3. -/
  | loopPriorityAging (cluster : Nat) (entry : Nat)
  /-- MATRIX_ENTRY_COMPLETE (R263). A loop's last pass ends, completing its entry and decrementing T. -/
  | matrixEntryComplete (cluster : Nat) (entry : Nat)
  /-- DRAIN_PERFORM (R268). The drain path converts and writes tile rows, waking the MDRAIN. -/
  | drainPerform (cluster : Nat) (entry : Nat)
  /-- ZERO_PERFORM (R269). The drain path zeroes a tile over 16 + 256 cycles. -/
  | zeroPerform (cluster : Nat) (entry : Nat)
  /-- PLANE_LOAD (R264). An MLOADW loads its plane into the shadow plane and tags it. -/
  | planeLoad (cluster : Nat) (entry : Nat)
  /-- PLANE_SWAP (R264). An MSWAP exchanges the active and shadow planes and tags. -/
  | planeSwap (cluster : Nat) (entry : Nat)
  /-- OPERAND_FAULT (R270). An operand fetch meets poison or an invalid handle; the tile is restored and the entry held. -/
  | operandFault (cluster : Nat) (entry : Nat)
  /-- SPARE_ROW_MISMATCH (R273). The spare row disagrees; the tile is restored and the loop replayed, possibly taking the engine offline. -/
  | spareRowMismatch (cluster : Nat) (entry : Nat) (column : Nat) (outcome : Nat)
  /-- ACCUMULATOR_ERROR (R272). An uncorrectable accumulator error restores and replays the loop once, then delivers MATRIXCHK. -/
  | accumulatorError (cluster : Nat) (entry : Nat) (row : Nat)
  /-- ENGINE_SERVICE (R274). A write to MSERV services the matrix engine and brings it online. -/
  | engineService (cluster : Nat) (value : Nat)
  /-- QWP_DOORBELL (R372). A write to a launch queue's QWP hands records to the device or raises a queue error. -/
  | qwpDoorbell (fn : Nat) (queue : Nat) (value : Nat)
  /-- REGISTER_WRITE (R387). A write to a register without behaviour of its own stores the written fields. -/
  | registerWrite (fn : Nat) (offset : Nat) (size : Nat) (value : Nat)
  /-- FUNCTION_LEVEL_RESET (R379). A function-level reset discards the VF's blocks and frees its resources within 1 ms. -/
  | functionLevelReset (vf : Nat)
  /-- CKPT_SAVE (R380). A CKPT write starts a checkpoint of a VF or the device to the safe tier. -/
  | ckptSave (value : Nat)
  /-- CKPT_RESTORE (R380). A CKPT write with RESTORE restores a scope from the safe tier. -/
  | ckptRestore (value : Nat)
  /-- QUIESCE_TIMEOUT (R380). Pre-emption for a checkpoint takes over 0.2 s; the checkpoint ends with QUIESCE. -/
  | quiesceTimeout
  /-- CHECKPOINT_DONE (R380). The checkpoint transfer ends; the device releases and raises an event of kind 9. -/
  | checkpointDone
  /-- RESUME (R381). A RESUME write resumes the scope left pre-empted by a checkpoint or restore. -/
  | resume (value : Nat)
  /-- REPLAN (R385). A REPLAN write starts a re-plan of a die's margins. -/
  | replan (value : Nat)
  /-- PERIODIC_REPLAN (R385). Every 24 hours firmware re-plans a die's margins and raises an event of kind 10. -/
  | periodicReplan (die : Nat) (plan : Nat)
  /-- CONTAIN_CLEAR (R378). A 1 written to CONTAIN through the PF window clears a VF's containment. -/
  | containClear (vf : Nat) (value : Nat)
  /-- FIXLAT (R285). A write while idle enters or leaves diagnostic fixed-latency mode for the whole device. -/
  | fixlat (die : Nat) (value : Nat)
  /-- CLRCNT (R387). A write clears the die's Fold, protection and port counters in fixed-latency mode. -/
  | clrcnt (die : Nat) (value : Nat)
  /-- LINK_RETRAIN (R393). A write to LINKST bit 31 retrains a Filzia link. -/
  | linkRetrain (link : Nat) (value : Nat)
  /-- CTX_SAVE (R388). CTXCMD save pre-empts a block and writes its image, or discards an uncommitted task. -/
  | ctxSave (value : Nat)
  /-- CTX_RESTORE (R236). CTXCMD restore places a saved block image on a core, or refuses it. -/
  | ctxRestore (value : Nat)
  /-- CTX_DISCARD (R388). CTXCMD discard stops a block, requeuing a task or faulting its launch. -/
  | ctxDiscard (value : Nat)
  /-- DBG_CLAIM (R389). A DBGCTL claim holds every split of a group at its next packet boundary. -/
  | dbgClaim (core : Nat) (value : Nat)
  /-- DBG_RELEASE (R168). A DBGCTL release restores each split's wait state. -/
  | dbgRelease (core : Nat) (value : Nat)
  /-- DBG_STEP_ONE (R168). DBGCMD advances one split by one packet and stops with a STEP event. -/
  | dbgStepOne (core : Nat) (value : Nat)
  /-- DBG_STEP_ALL (R168). DBGCMD advances every ready split by one instruction and stops with a STEP event. -/
  | dbgStepAll (core : Nat) (value : Nat)
  /-- DBG_MOVE (R389). DBGCMD moves a named dormant split into the split table. -/
  | dbgMove (core : Nat) (value : Nat)
  /-- BOOT (R382). At power-on the Zynad controller verifies and measures each firmware stage. -/
  | boot
  /-- SPDM_GET_CERTIFICATE (R383). Returns the identity key's public half and certificate chain. -/
  | spdmGetCertificate
  /-- SPDM_GET_MEASUREMENTS (R383). Returns the measurement log signed by the identity key. -/
  | spdmGetMeasurements (nonce : Nat)
  /-- CORE_POWER_GATE (R386). A core without a resident group for 10,000 cycles is power-gated. -/
  | corePowerGate (core : Nat)
  /-- INSTRUCTION_FETCH (R366). A core fetches a 64-byte code block, translated and checked like a read. -/
  | instructionFetch (core : Nat) (asid : Nat) (block : Nat)
  /-- FETCH_RETURN (R408). A block fetch returns, or fails so that the word traps at issue. -/
  | fetchReturn (core : Nat) (fetch : Nat)
  /-- HOST_READ_COMPLETION (R371). A host-region read completes, poisoned when the host indicates poison. -/
  | hostReadCompletion (request : Nat) (poison : Bool)
  /-- LINK_FRAME_ARRIVAL (R393). A Filzia frame is authenticated and its flits accepted, or a retry is requested. -/
  | linkFrameArrival (link : Nat) (good : Bool)
  /-- LINK_DOWN (R393). After 8 consecutive failures a link goes down and its packets are discarded. -/
  | linkDown (link : Nat)
  /-- KEY_RENEWAL (R393). A link direction's key is renewed before the frame counter reaches 2^48. -/
  | keyRenewal (link : Nat)
  /-- FABRIC_FORWARD (R397). A fabric packet is forwarded hub to hub by dimension order, or discarded. -/
  | fabricForward (packet : Nat)
  /-- CONTRIBUTION_ARRIVAL (R399). A collective contribution reaches the combiner and is combined, writing results when complete. -/
  | contributionArrival (contribution : Nat)
  /-- CONTRIBUTOR_TIMEOUT (R401). A fabric command's watchdog expires and it completes with TIMEOUT. -/
  | contributorTimeout (core : Nat) (seq : Nat)
  /-- COMBINER_TIMEOUT (R401). A combiner entry standing WDOG cycles is freed and its contributors answered TIMEOUT. -/
  | combinerTimeout (entry : Nat)
  /-- RCOPY_UNIT_ARRIVAL (R403). An RCOPY unit arrives at the target device and is checked and written there. -/
  | rcopyUnitArrival (unit : Nat)
  /-- ILLEGAL_WORD (R54). A word that is not a valid instruction, or whose fetch failed, reaches issue and traps ILLEGAL precisely. -/
  | illegalWord (reason : Nat)
  /-- RESULT_ARRIVAL (R401). The first unit of a collective result reaches a contributor, which writes the whole result and completes DONE, or discards it after TIMEOUT. -/
  | resultArrival (result : Nat)
  /-- TASK_COMPLETION_REPORT (R237). A thief's report of a stolen task's end reaches the victim core, which records the task as ended, or the report gets a NACK of kind 4. -/
  | taskCompletionReport (report : Nat)
  /-- HOST_WRITE_COMPLETION (R362). A write to host-region memory is accepted by its port and completes at the host or safe tier. -/
  | hostWriteCompletion (request : Nat)
  /-- LINK_TRAINED (R392). A Filzia link finishes training, going up when its round trip is at most 48 flit times and its keys are set. -/
  | linkTrained (link : Nat) (roundTrip : Nat) (keys : Bool)
  /-- IDE_KM (R370). IDE keys are set over an SPDM session, establishing or ending a port IDE stream such as a VF's selective stream. -/
  | ideKm (vf : Nat) (up : Bool)
  /-- POWER_STATE_CHANGE (R386). The device moves between the power states D0 and D3hot. -/
  | powerStateChange (d3hot : Bool)
  /-- MODULE_POWER_LIMIT (R386). Module power reaches or falls below 2,400 W, and cores and engines begin or stop withholding issue cycles. -/
  | modulePowerLimit (limiting : Bool)
  /-- CKPT_RESTORE_DONE (R380). A restore from the safe tier ends, re-entering listed poisoned units and leaving the scope pre-empted with CKPT GO clear. -/
  | ckptRestoreDone
  /-- FUNCTION_LEVEL_RESET_DONE (R379). A function-level reset completes within 1 ms, after which doorbells are taken and stops and bridges stop discarding the partition's flits. -/
  | functionLevelResetDone (vf : Nat)
deriving DecidableEq, Repr, Inhabited

end Sys2Proof
end

