-- ==== Sys2Proof/Machine/State.lean ====
section
/-!
DEFINITION. The state of a Z4 device as plain data, its faults and refusals, the actions that drive
it, and the state after reset. A core is numbered 64 × die + 4 × cluster + core, a cluster
16 × die + cluster. Times are counts of the arithmetic clock since reset (State.now).
-/
namespace Sys2Proof.Machine

/-- A rejoin register (R88). STATE 0 idle, 1 armed, 2 releasing. `start` is when a release began,
and `partialRel` whether it is partial (R160). -/
structure Rejoin where
  state : Nat := 0
  sfmt : Word := 0
  expected : LaneMask := 0
  arrived : LaneMask := 0
  start : Nat := 0
  partialRel : Bool := false
deriving DecidableEq, Repr, Inhabited

/-- What a waiting instruction (WAIT 3) keeps between its issues. -/
inductive Await where
  /-- The instruction keeps nothing, or the split waits in none. -/
  | none
  /-- FENCE: the counts of stores and of loads issued and the fetches in flight when it issued (R184, R367). -/
  | fence (stores loads : Nat) (fetches : List Nat)
  /-- BWAIT and TJOIN: the word of their operand (R196, R232). -/
  | word (n : Word)
  /-- A scratchpad SEAL that holds an entry: the first command number not accepted before it, and its
  range (R185). -/
  | seal (bound off len : Nat)
  /-- A global SEAL before its request: the same (R303). -/
  | gseal (bound addr len : Nat)
  /-- A request to an owner die, by its number, not yet answered (R298, R303, R305). -/
  | asked (req : Nat)
  /-- The answer of the owner die. -/
  | answered (w : Word)
  /-- MDRAIN: the acceptance number of its reservation entry (R268). -/
  | drain (num : Nat)
  /-- MDRAIN whose entry has completed (R268). -/
  | drained
  /-- HGIVE: the handle, the count of stores its group had issued, the number of its issue, and the block
  and queue that it gives to (R246, R248, R250). -/
  | give (h : Word) (stores num blk queue : Nat)
  /-- HDROP: the handle and the count of stores its group had issued (R248, R253). -/
  | drop (h : Word) (stores : Nat)
  /-- HTAKE: its queue, and the number of its arrival there (R251). -/
  | take (queue arrival : Nat)
deriving DecidableEq, Repr, Inhabited

/-- A split (R143): its table or paddock entry and the counts of R150 and R151. `place` is 0 to 63
for a table entry and 64 + i for paddock entry i of its block. -/
structure Split where
  id : Nat := 0
  place : Nat := 0
  wait : Nat := 0
  wj : Nat := 0
  pwait : Nat := 0
  dwait : Nat := 0
  prio : Bool := true
  age : Word := 0
  s56 : Word := 0
  s57 : Word := 0
  s58 : Word := 0
  s59 : Word := 0
  fmt : Word := 0
  exec : LaneMask := 0
  domain : LaneMask := 0
  pc : DWord := 0
  /-- Cycles since it last became ready or issued (R150). -/
  idle : Nat := 0
  /-- It is due as primary split (R150). -/
  due : Bool := false
  /-- Cycles for which a reservation has held a fairness rule back (R151). -/
  grace : Nat := 0
  /-- YIELD holds it back since this time (R131). -/
  yielded : Option Nat := none
  /-- The first cycle in which it may issue after an event made it ready (R149). -/
  readyAt : Nat := 0
  /-- The CYCLE_HI latch (R89). -/
  cycHi : Word := 0
  /-- It is a split of the trap handler (R164, R165). -/
  handler : Bool := false
  /-- The instruction it waits in (WAIT 3), already counted in PROG. -/
  waitI : Option Instr := none
  await : Await := .none
deriving DecidableEq, Repr, Inhabited

/-- The registers shared by the splits of a group: s0 to s55 (R83), vector registers keyed
96 × register + lane (R82), and k1 to k7 (R87). -/
structure GRegs where
  s : Tbl Word := []
  v : Tbl Word := []
  k : Tbl LaneMask := []
deriving DecidableEq, Repr, Inhabited

/-- One store instruction in a store queue (R186): the core whose scratchpad it writes, the handle
it went through, and its bytes at their addresses in that scratchpad. -/
structure StoreOp where
  home : Nat
  handle : Option Word
  cells : List (Nat × Byte)
deriving DecidableEq, Repr, Inhabited

/-- A load that has issued and not yet performed (R187): the cycle of its issue, the stores of its group issued
before it, the split that issued it, its destination and its bytes' places. Until it performs its registers are
pending; what they hold meanwhile is what the scratchpad held at its issue. -/
structure LoadOp where
  at_ : Nat
  stores : Nat
  split : Nat
  handler : Bool
  /-- A trap has copied the split's own registers for its handler since. -/
  both : Bool := false
  /-- LDU, into scalar registers; else into vector registers. -/
  uniform : Bool
  dst : Nat
  /-- Bytes of each lane. -/
  size : Nat
  home : Nat
  /-- The lanes that read, each with its address; for LDU the one address. -/
  lanes : List (Nat × Nat)
  /-- The granules that lanes of an LDRES reserve as it performs (R178). -/
  resv : Tbl Nat := []
deriving DecidableEq, Repr, Inhabited

/-- A closed batch (R197): commands outstanding, commands held, and status bits [8:1]. -/
structure Batch where
  open_ : Nat := 0
  count : Nat := 0
  status : Word := 0
  /-- The first command number that it does not hold. -/
  upto : Nat := 0
deriving DecidableEq, Repr, Inhabited

/-- A posted receive (R206): its channel, whether RECVV, its destination and status registers, the
participants at posting time and the posting split. -/
structure Posted where
  /-- Its number among all receives posted, which orders them. -/
  num : Nat
  /-- The rollback interval of its block in which it was posted (R217, R219). -/
  interval : Nat := 0
  chan : Nat
  isV : Bool
  dst : Nat
  sa : Nat
  lanes : LaneMask
  split : Nat
  handler : Bool := false
  /-- The split that posted it is no more: its own registers are not written. -/
  gone : Bool := false
deriving DecidableEq, Repr, Inhabited

/-- A message, active message, NACK or error message (R205 to R209). -/
structure Msg where
  /-- 0 SEND and SENDV, 1 AMSG, 2 NACK. -/
  kind : Nat
  /-- Channel, or handler index of AMSG. -/
  chan : Nat
  /-- The destination word sent. -/
  dest : Word
  /-- The GRIDID sent (AMSG). -/
  grid : Word
  payload : List Word
  /-- Source core, the sender's group slot there and its number. -/
  src : Nat
  srcSlot : Nat
  srcUid : Nat
  /-- Partition (R309). -/
  part : Nat
  /-- Kind of a NACK (R208). -/
  nack : Nat := 0
deriving DecidableEq, Repr, Inhabited

/-- A message that has not left its core: it waits for the stores issued before it (R210). -/
structure OutMsg where
  stores : Nat
  msg : Msg
  /-- The rollback interval of its block in which it was sent (R217, R219). -/
  interval : Nat := 0
deriving DecidableEq, Repr, Inhabited

/-- A trap that waits: for the trap pair, for a release in progress, or posted by the matrix engine
(R164, R166, R270). -/
structure PendTrap where
  split : Nat
  cause : Nat
  info : Word
  pc : DWord
  resume : DWord
  /-- The matrix engine posted it: its entry is held until a handler returns (R270). -/
  posted : Bool := false
deriving DecidableEq, Repr, Inhabited

/-- Trap registers and the trap in progress (R164 to R167, R222). -/
structure GTrap where
  cause : Nat := 0
  pc : DWord := 0
  info : Word := 0
  active : Bool := false
  split : Nat := 0
  resume : Option DWord := none
  pending : Option PendTrap := none
  matrix : List PendTrap := []
  jshadow : Tbl Rejoin := []
deriving DecidableEq, Repr, Inhabited

/-- Batches, counters and the fence marks of a group's commands (R184, R195 to R201). -/
structure GCmds where
  batchNo : Word := 0
  batchDone : Word := 0
  batches : Tbl Batch := []
  unclosed : Batch := {}
  t : Nat := 0
  s : Nat := 0
  r : Nat := 0
  p : Nat := 0
  /-- Scope of the last FENCE at each scope and the command number that bounds it. -/
  fences : Tbl Nat := []
deriving DecidableEq, Repr, Inhabited

/-- Convoy registers of a group (R289, R291, R293, R300). -/
structure GConvoy where
  id : Word := 0
  slip : Word := 0
  off : Word := 0
  members : Word := 0
  stat : Word := 0
  tmo : Word := 20000
  timer : Nat := 0
  /-- The bound last received; none is unbounded (R292). -/
  bound : Option Nat := none
deriving DecidableEq, Repr, Inhabited

/-- Store queue, loads, messages and receives of a group. -/
structure GQueues where
  stores : List StoreOp := []
  stIn : Nat := 0
  stOut : Nat := 0
  /-- Loads that have not performed, in issue order, with the numbers issued and performed. -/
  loads : List LoadOp := []
  ldIn : Nat := 0
  ldOut : Nat := 0
  posted : List Posted := []
  errq : List (List Word) := []
  errDrop : Bool := false
  out : List OutMsg := []
deriving DecidableEq, Repr, Inhabited

/-- A resident group (R79 to R91). `uid` is the number of its start, for references that outlive a
slot. -/
structure Group where
  uid : Nat := 0
  gid : Nat := 0
  block : Nat := 0
  nlanes : Nat := 96
  foot : Nat := 8
  regs : GRegs := {}
  j : Tbl Rejoin := []
  splits : List Split := []
  cvm : DWord := 0
  stat : Word := 0
  /-- The flags of STAT that the hardware has set in this cycle: an SWRITE does not clear them (R133). -/
  statNow : Word := 0
  prog : Word := 0
  /-- The cycle in which it last started a packet (R211). -/
  issuedAt : Option Nat := none
  trap : GTrap := {}
  cmds : GCmds := {}
  cv : GConvoy := {}
  q : GQueues := {}
  /-- Reserved granules by lane (R178). -/
  resv : Tbl Nat := []
  /-- The paddock timer, and whether a swap that it called for is still to come (R150). -/
  padTimer : Nat := 0
  padDue : Bool := false
  /-- Cycles for which a reservation has held a paddock swap back (R151). -/
  padGrace : Nat := 0
  mstat : Word := 0
  saves : Nat := 0
  rank : Nat := 0
  /-- Ranges of every ICINV that the group has issued (R367). -/
  icinv : List (Nat × Nat) := []
  claimed : Bool := false
  ended : Bool := false
  /-- The table and paddock entries that the ended group still takes until its commands have completed
  (R139, R199). -/
  kept : List Nat := []
deriving DecidableEq, Repr, Inhabited

/-- A record of the undo journal (R216). -/
inductive JRec where
  /-- A vector register of the group of that slot and number before its first write. -/
  | vreg (slot uid reg : Nat) (old : Tbl Word)
  /-- A 32-byte line of a core's scratchpad, with its poison and non-resident bits. -/
  | line (core addr : Nat) (old : Tbl Byte) (poison nonres : Bool)
  /-- A seal entry of the block, by its range, made or removed; and all entries before that. -/
  | sealing (off len : Nat) (made : Bool) (old : List (Nat × Nat))
deriving DecidableEq, Repr, Inhabited

/-- A group record of the undo journal (R215). -/
structure GRec where
  uid : Nat
  s : Tbl Word
  split : Split
  k : Tbl LaneMask
  j : Tbl Rejoin
  cvm : DWord
  cvtmo : Word
deriving DecidableEq, Repr, Inhabited

/-- A resident block (R171, R214 to R222, R246, R388). -/
structure Block where
  uid : Nat := 0
  vf : Nat := 0
  asid : Nat := 0
  priv : Bool := false
  launch : Nat := 0
  gang : Nat := 0
  blockId : Nat := 0
  gangSize : Nat := 1
  base : Nat := 0
  size : Nat := 512
  padN : Nat := 0
  /-- Handler index of the trap entry (R222). -/
  trapEntry : Option Nat := none
  depth : Nat := 0
  groups : Nat := 1
  exposed : Bool := false
  jfull : Bool := false
  dbl : Bool := false
  /-- It stands at a packet boundary until its rollback can go on; the mark is that of a DOUBLE
  (R219, R226). -/
  rolling : Option Bool := none
  interval : Nat := 0
  /-- An uncorrectable error stands in its undo journal (R221). -/
  jbad : Bool := false
  jrecs : List JRec := []
  grecs : Tbl GRec := []
  /-- Groups that ended and left the core in this interval, by the slot they left: a rollback brings them
  back (R219). -/
  gone : Tbl Group := []
  /-- Scratchpad seal entries, oldest first: start offset and length (R185). -/
  seals : List (Nat × Nat) := []
  hq : Tbl (List Word) := []
  /-- It runs an active-message handler (R209). -/
  amsg : Bool := false
  /-- Task: spawning core, table entry and generation (R229). -/
  task : Option (Nat × Nat × Nat) := none
  committed : Bool := false
  /-- Its task returns to its queue once the block's resources are free (R221, R233). -/
  requeue : Bool := false
  /-- The cause of the fatal trap by which its task has failed (R225, R232). -/
  taskFail : Option Nat := none
  /-- It is being pre-empted: it issues no more (R233). -/
  preempt : Bool := false
  /-- Pinned to its core and slot, and to its cluster (R204, R247, R271). -/
  pinSlot : Bool := false
  pinCluster : Bool := false
  /-- Every group has ended; only commands are awaited. -/
  ended : Bool := false
deriving DecidableEq, Repr, Inhabited

/-- What a command's next act is about: a choice left free (R9, R188, R189). -/
structure Aim where
  /-- Which of the positions not yet requested it reads. -/
  pos : Nat := 0
  /-- It reads although something read waits to be written. -/
  read : Bool := false
  /-- Which of the pieces read it writes. -/
  box : Nat := 0
  /-- The bytes of that piece which it passes over. -/
  from_ : Nat := 0
  /-- The most bytes of scratchpad that it reads or writes; 0 when nothing cuts it short. -/
  len : Nat := 0
deriving DecidableEq, Repr, Inhabited

/-- An engine command (R57 to R60, R189 to R201). -/
structure Cmd where
  seq : Nat
  queue : Nat
  w : List Word
  slot : Nat
  uid : Nat
  block : Nat
  buid : Nat
  interval : Nat
  vf : Nat
  asid : Nat
  launch : Nat
  /-- The batch that holds it; none while unclosed. -/
  batch : Option Nat := none
  fences : Tbl Nat := []
  acceptedAt : Nat := 0
  startedAt : Option Nat := none
  /-- The stretches of its positions not yet requested, start and length, once it has started. -/
  rest : List (Nat × Nat) := []
  /-- What its next act is about: a choice left free, made by Action.aim. -/
  aim : Aim := {}
  /-- The bytes it has written clean, and with data that is resident, of scratchpad lines not yet
  written whole (R175, R193). -/
  clean : Tbl (BitVec 32) := []
  present : Tbl (BitVec 32) := []
  /-- The 64-byte blocks of global memory of which it has written a part: each by address, and where it lies:
  die, or 4 for the host, and physical block (R368). -/
  wrote : List (Nat × Nat × Nat) := []
  /-- Units of an RCOPY sent and not yet acknowledged (R403). -/
  sub : Nat := 0
  status : Word := 0
  /-- Requests without an answer: request number, position, bytes it covers and their address. -/
  pend : List (Nat × Nat × Nat × Nat) := []
  /-- Bytes read and not yet written: position, bytes, whether they carry poison and whether they come
  from a page that is not resident. -/
  outbox : List (Nat × List Byte × Bool × Bool) := []
  /-- The first cycle in which the engine may decide its next unit (R332). -/
  nextAt : Nat := 0
  /-- It is a convoy stream and was accepted while its group belonged to a convoy (R290). -/
  stream : Bool := false
  /-- The stream offset of the held unit (R291). -/
  held : Option Nat := none
  /-- It performs no further read or write (R219, R378). -/
  stopped : Bool := false
  /-- Data gathered for a collective, with the stretches of it that carry poison: start and length. -/
  buf : Tbl Byte := []
  bufBad : List (Nat × Nat) := []
  /-- 0 before the contribution has been sent whole, 1 after, 2 once a result has come. -/
  phase : Nat := 0
  /-- Packets of the contribution sent, and bytes of the result still to come (R399, R401). -/
  sent : Nat := 0
  due : Nat := 0
deriving DecidableEq, Repr, Inhabited

/-- A channel table entry (R203) with its messages and the backing while swapped (R204). -/
structure Chan where
  gen : Nat := 0
  block : Nat := 0
  state : Nat := 0
  msgs : List Msg := []
  backing : List Msg := []
deriving DecidableEq, Repr, Inhabited

/-- A buffer table entry (R244). -/
structure Buf where
  gen : Nat := 1
  state : Nat := 0
  hq : Nat := 0
  hcore : Nat := 0
  hblk : Nat := 0
  home : Nat := 0
  len32 : Nat := 0
  base : Nat := 0
  /-- The number of the block in whose queue the handle waits, when STATE = 2 (R247, R277). -/
  buid : Nat := 0
deriving DecidableEq, Repr, Inhabited

/-- A task table entry (R229 to R232, R237). -/
structure Task where
  gen : Nat := 0
  /-- 0 free, 1 queued, 2 lent, 3 running, 4 committed, 5 done, 6 failed, 7 lost. -/
  state : Nat := 0
  cause : Nat := 0
  req : Nat := 0
  order : Nat := 0
  entry : Nat := 0
  lanes : Nat := 0
  foot : Nat := 0
  padN : Nat := 0
  spad : Nat := 0
  arg : Word := 0
  depth : Nat := 0
  vf : Nat := 0
  asid : Nat := 0
  priv : Bool := false
  launch : Nat := 0
  trapEntry : Option Nat := none
  spawner : Nat := 0
  /-- The core that runs or holds it, the time of the lease and the lease number. -/
  thief : Nat := 0
  leaseAt : Nat := 0
  lease : Nat := 0
deriving DecidableEq, Repr, Inhabited

/-- A fetched 64-byte block of code, or the failure of its fetch (R366, R408): 0 good, else the
cause and detail to report. -/
structure Code where
  asid : Nat
  block : Nat
  bytes : List Byte
  fail : Nat := 0
deriving DecidableEq, Repr, Inhabited

/-- A fetch in flight (R366). -/
structure Fetch where
  id : Nat
  vf : Nat
  asid : Nat
  block : Nat
  /-- A FENCE after an ICINV over its block has discarded what it returns (R367). -/
  dropped : Bool := false
  /-- What it read, once it has performed at the block's home (R366). -/
  got : Option Code := none
deriving DecidableEq, Repr, Inhabited

/-- A block that is context-saved (R204, R233, R247): the slot it left and the block as it stood, its
groups by GROUPID (what an image does not hold: numbers, error queues, posted traps), its poisoned and
non-resident lines relative to its base, and where its image lies: at a CTXADDR, or here when a
checkpoint took it (R380). -/
structure Saved where
  slot : Nat
  block : Block
  groups : Tbl Group
  poison : List Nat := []
  nonres : List Nat := []
  area : Option DWord := none
  image : List Byte := []
  /-- It is pinned to its core and slot only by handles given to it since it left them (R277, log entry 40). -/
  late : Bool := false
deriving DecidableEq, Repr, Inhabited

/-- The record of a task stolen from another core (R237). -/
structure Stolen where
  victim : Nat
  tslot : Nat
  gen : Nat
  lease : Nat
  task : Task
  acked : Bool := false
deriving DecidableEq, Repr, Inhabited

/-- What travels between the cores of a stolen task: its record, which goes to the thief, the thief's
acknowledgement, the NACK of a late one, and the report of the task's end, with the cause of a failure or 0
(R237). -/
inductive TaskMsg where
  | record (thief : Nat) (r : Stolen)
  | ack (thief : Nat) (r : Stolen)
  | nack (thief : Nat) (r : Stolen)
  | report (owner entry gen code vf : Nat)
deriving DecidableEq, Repr, Inhabited

/-- A request to an owner die's controller: CVJOIN, global SEAL or UNSEAL (R298, R303, R305). -/
structure Ask where
  id : Nat
  core : Nat
  slot : Nat
  uid : Nat
  split : Nat
  blockUid : Nat
  vf : Nat
  asid : Nat
  addr : Nat
  len : Nat
  scope : Nat
  rein : Nat := 0
  part : Nat := 0
  /-- The block's slot and the interval in which it asked (R217, R219). -/
  block : Nat := 0
  interval : Nat := 0
deriving DecidableEq, Repr, Inhabited

/-- One core (R170). -/
structure Core where
  /-- The time at which its cycle count was 0 (R238): that of reset in every core (log entry 74). -/
  epoch : Nat := 0
  gated : Bool := false
  /-- When a group last left it (R386). -/
  emptyAt : Nat := 0
  spad : Tbl Byte := []
  poison : Tbl Bool := []
  nonres : Tbl Bool := []
  groups : Tbl Group := []
  blocks : Tbl Block := []
  saved : List Saved := []
  /-- The group slot whose trap uses the trap pair (R164). -/
  trapOwner : Option Nat := none
  rr : Nat := 15
  /-- The cycle of its last issue decision and the packets started in it (R211). -/
  issueAt : Nat := 0
  issues : Nat := 0
  chans : Tbl Chan := []
  cmds : List Cmd := []
  bufs : Tbl Buf := []
  tasks : Tbl Task := []
  stolen : List Stolen := []
  amq : List Msg := []
  landing : List Msg := []
  nacks : List Msg := []
  /-- NACKs that have not left the core. -/
  outNacks : List Msg := []
  /-- Records of tasks, their acknowledgements, NACKs and reports that have not left the core, and the
  acknowledgements that have come to it, each with the thief (R237). -/
  outTasks : List TaskMsg := []
  acks : List (Nat × Stolen) := []
  /-- Seal requests that have not left the core, each with whether it asks to unseal (R303, R305). -/
  asks : List (Ask × Bool) := []
  /-- Its engines cannot take a reply for now (R316): a state left free, set by Env.noReply. -/
  noReply : Bool := false
  /-- Active messages kept in a grid's backing while its blocks here are saved (R209). -/
  ambacking : List Msg := []
  /-- Grids whose handler table the core holds (R209). -/
  tables : List Nat := []
  /-- The first cycle in which its engines may issue another unit (R332). -/
  engAt : Nat := 0
  code : List Code := []
  fetches : List Fetch := []
  dbgHeld : Option Nat := none
  /-- Splits of the held group that the debugger is stepping (R168). -/
  steps : List Nat := []
  /-- VFs whose reset in progress took a block of the core (R330). -/
  resetBy : List Nat := []
  dbgctl : Word := 0
  dbgcmd : Word := 0
  dbgstat : Word := 0
deriving DecidableEq, Repr, Inhabited

/-- A matrix reservation entry (R258). -/
structure MEntry where
  /-- Acceptance number, table entry and kind: 0 MLOADW, 1 MSWAP, 2 MLOOP, 3 MDRAIN, 4 MZERO. -/
  num : Nat
  slot : Nat
  kind : Nat
  /-- 0 pending, 1 running, 2 held, 3 parked. -/
  state : Nat := 0
  core : Nat
  gslot : Nat
  uid : Nat
  block : Nat
  buid : Nat
  launch : Nat
  gang : Nat
  split : Nat
  /-- Its split is one of the trap handler: split ids are those of R165. -/
  handler : Bool := false
  tile : Nat
  imm : Nat
  fmt : Word
  cvm : DWord
  /-- Descriptor registers s[SA..SA+3] and operand block or handle s[SB..SB+3]. -/
  a : List Word
  b : List Word
  at_ : Nat
  /-- Priority raised by age (R258). -/
  aged : Bool := false
  /-- It is a loop that has been granted its first pass (R263, R267). -/
  ran : Bool := false
  /-- Next K-step. -/
  step : Nat := 0
  /-- The array row that its last pass checked, and its mismatches whose K-step the replay has still to
  run: K-step, row, column and what the replay will agree with (R273). -/
  row : Nat := 0
  mism : List (Nat × Nat × Nat × Nat) := []
  replayed : Bool := false
  /-- When the drain path took it, and the rows it skips (R268, R272). -/
  began : Nat := 0
  skip : List Nat := []
deriving DecidableEq, Repr, Inhabited

/-- A plane (R256): its 64 KiB, its tag (launch and gang) and the space of B. -/
structure Plane where
  bytes : Tbl Byte := []
  tag : Option (Nat × Nat) := none
  /-- Core, block slot and number of the block that loaded it, and its handle word or 0. -/
  space : Nat × Nat × Nat × Word := (0, 0, 0, 0)
deriving DecidableEq, Repr, Inhabited

/-- One cluster's matrix engine (R255 to R276). Tiles are keyed 65536 × tile + 256 × row + column;
the shadow keeps the rows it holds as tile × 256 + row. -/
structure Cluster where
  acc : Tbl Word := []
  shadow : Tbl Word := []
  shadowRows : List Nat := []
  badRows : List Nat := []
  active : Plane := {}
  shadowP : Plane := {}
  entries : List MEntry := []
  nextNum : Nat := 0
  offline : Bool := false
  chkpause : Bool := false
  mapped : Bool := false
  sparebad : Bool := false
  maprow : Nat := 0
  passes : Nat := 0
  names : Nat := 0
  nameValid : Bool := false
  nameSpare : Bool := false
  nameCol : Nat := 0
  nameRow : Nat := 0
  /-- Namings of the spare and of each row since service (R273). -/
  spareNames : Nat := 0
  rowNames : Tbl Nat := []
deriving DecidableEq, Repr, Inhabited

/-- A leaf entry's fields as a translated request carries them (R339). -/
structure Leaf where
  gran : Nat := 0
  integ : Bool := false
  enc : Bool := false
  sealok : Bool := false
  resident : Bool := true
  quar : Bool := false
  rd : Bool := true
  wr : Bool := true
  at_ : Bool := true
  frame : Nat := 0
  level : Nat := 1
deriving DecidableEq, Repr, Inhabited

/-- A unit request of an engine (R279, R337). -/
structure Req where
  /-- Its number, the core and command that sent it. -/
  id : Nat
  core : Nat
  seq : Nat
  uid : Nat
  launch : Nat
  vf : Nat
  asid : Nat
  /-- 0 read, 1 write, 2 atomic. -/
  kind : Nat
  va : Nat
  len : Nat
  data : List Byte := []
  poison : Bool := false
  /-- Operation and size of an atomic, and its operands x and n (R194). -/
  op : Nat := 0
  x : DWord := 0
  n : DWord := 0
  lat : Bool := false
  /-- The die whose mesh it entered, its entry router there. -/
  die : Nat := 0
  router : Nat := 0
  port : Nat := 0
  /-- The lane buffer in which it waits to be translated (R316, R337). -/
  lane : Option Nat := none
  /-- After translation: physical unit address, unit size and leaf; the size is 0 before. -/
  pa : Nat := 0
  unit : Nat := 0
  leaf : Leaf := {}
  /-- The range of the slice entry that translated it: start and length (R358). -/
  page : Nat × Nat := (0, 0)
  /-- The die whose replica of the unit is to serve it, and the unit's own die and physical address (R304). -/
  replica : Option Nat := none
  home : Option (Nat × Nat) := none
  /-- When it arrived at its stop, and whether the poison record, or a quarantine, then held its unit
  (R285, R355). -/
  arrived : Nat := 0
  recorded : Bool := false
  quar : Bool := false
deriving DecidableEq, Repr, Inhabited

/-- A requester of a Fold entry (R280). -/
structure Tag where
  id : Nat
  core : Nat
  seq : Nat
  uid : Nat
  part : Nat
  lat : Bool
  /-- The address space and address by which it knows the unit, and the range of the slice entry that
  translated it (R358). -/
  asid : Nat := 0
  va : Nat := 0
  page : Nat × Nat := (0, 0)
deriving DecidableEq, Repr, Inhabited

/-- A fabric packet (R395, R397, R399, R403). Kind 0 contribution, 1 result, 2 completion or
TIMEOUT answer, 3 RCOPY unit, 4 RCOPY acknowledgement. -/
structure FabPkt where
  kind : Nat
  key : Word
  src : Nat
  dst : Nat
  core : Nat
  seq : Nat
  op : Nat := 0
  words : List Word := []
  va : Nat := 0
  data : List Byte := []
  /-- Of a vector: the byte at which its data starts, and the bytes of the whole vector (R308, R399). -/
  off : Nat := 0
  size : Nat := 0
  /-- The unit of an RCOPY carries poison. -/
  poison : Bool := false
  /-- The stretches of a vector that carry poison: start and length in bytes (R399). -/
  bad : List (Nat × Nat) := []
  status : Word := 0
  /-- The link by which it came, 18 for this device. -/
  link : Nat := 18
  /-- Its class: 0 latency, 1 bulk (R311, R391). -/
  cls : Nat := 1
  /-- The die at whose link hub it stands, and whether it came there over the mesh (R390). -/
  hub : Nat := 0
  mesh : Bool := false
deriving DecidableEq, Repr, Inhabited

/-- A frame of a Filzia link (R393): its counter, the packets of its flits, and what AES-256-GCM makes of
them: the text that crosses the link and the tag. -/
structure Frame where
  count : Nat
  pkts : List FabPkt
  text : List Byte := []
  tag : BitVec 128 := 0
deriving DecidableEq, Repr, Inhabited

/-- The payload of a packet (R308). -/
inductive Payload where
  /-- A read, write or atomic request. -/
  | req (r : Req)
  /-- A reply: the unit's bytes, poison and status bits for each tag. -/
  | reply (tags : List Tag) (bytes : List Byte) (poison : Bool) (status : Word)
  /-- A message or a NACK. -/
  | msg (m : Msg)
  /-- A record of a task, or what answers it (R237). -/
  | task (m : TaskMsg)
  /-- A request to seal, or to unseal, a global range (R303, R305). -/
  | ask (a : Ask) (lift : Bool)
  /-- The confirmation of a seal request: what the split that asked waits for. -/
  | confirm (a : Ask) (w : Word)
  /-- A convoy bound, by its number, for member `member` of a slot of die `die` (R292). -/
  | bound (die slot member core gslot uid num : Nat)
  /-- A fabric packet on its way over the mesh to a link hub or to a core (R390, R397). -/
  | fab (p : FabPkt)
deriving DecidableEq, Repr, Inhabited

/-- A packet (R308 to R313, R326). `dests` lists the destinations: die, router and port. -/
structure Packet where
  dests : List (Nat × Nat × Nat)
  route : Nat
  kind : Nat
  cls : Nat
  part : Nat
  flits : Nat := 1
  payload : Payload
  /-- The x coordinate of its source router (R313, R390). -/
  srcX : Nat := 0
deriving DecidableEq, Repr, Inhabited

/-- One packet in an input buffer: ports still to be granted, and its ages there (R320, R326). -/
structure Slot where
  pkt : Packet
  /-- Output ports toward which a copy is still to be sent. -/
  todo : List Nat
  ages : Tbl Nat := []
  promoted : List Nat := []
  /-- The body flit follows (R317). -/
  body : Bool := false
  /-- Its own body flit has still to follow it here. -/
  short : Bool := false
  /-- First cycle in which the head may wait here. -/
  since : Nat := 0
deriving DecidableEq, Repr, Inhabited

/-- One output port (R317 to R319, R322, R328). -/
structure Port where
  cur : Nat := 0
  n : Nat := 0
  ptrLat : Nat := 19
  ptrBulk : Nat := 19
  deferred : List (Nat × Nat) := []
  /-- The class of the packet whose body flit comes next. -/
  body : Option Nat := none
  /-- The cycle after which it may grant again. -/
  nextAt : Nat := 0
  slots : Tbl Nat := []
  txlat : Word := 0
  txbulk : Word := 0
  txres : Word := 0
  promo : Word := 0
  stallc : Word := 0
  purged : Word := 0
deriving DecidableEq, Repr, Inhabited

/-- One Fold entry (R280). -/
structure Fold where
  num : Nat
  key : Nat × Nat
  req : Req
  tags : List Tag
  openedAt : Nat
  closed : Bool := false
  poisoned : Bool := false
  /-- Its data has arrived; its reply has still to leave the stop. -/
  done : Bool := false
  /-- The die for which the owner die copies the unit under this entry (R304). -/
  copy : Option Nat := none
deriving DecidableEq, Repr, Inhabited

/-- One memory stop (R278 to R284, R349 to R353). -/
structure Stop where
  /-- Requests that have arrived, in order of arrival, and which of them is taken next: a choice left free,
  made by Action.aimStop. -/
  inq : List Req := []
  aim : Nat := 0
  folds : List Fold := []
  /-- Replies that have fallen due and not left, in that order, each with the number of its entry (0 for
  an atomic). -/
  replies : List (Nat × Packet) := []
  /-- Poison record: first sector of a recorded unit to its granule. -/
  record : Tbl Nat := []
  freq : DWord := 0
  fmrg : DWord := 0
  ffet : DWord := 0
  fwrt : DWord := 0
  cecnt : Word := 0
  uecnt : Word := 0
  macf : Word := 0
  poisr : Word := 0
deriving DecidableEq, Repr, Inhabited

/-- A slice entry (R341). -/
structure TlbEntry where
  asid : Nat
  va : Nat
  size : Nat
  leaf : Leaf
deriving DecidableEq, Repr, Inhabited

/-- A page-table walk in progress (R341). -/
structure Walk where
  id : Nat
  asid : Nat
  vf : Nat
  va : Nat
  kind : Nat
  began : Nat
  /-- A TLBINV that waits for it (R358). -/
  barred : Bool := false
deriving DecidableEq, Repr, Inhabited

/-- A convoy member (R288, R291). State 1 hitched, 2 held, 3 unhitched, 4 rehitched. -/
structure Member where
  core : Nat
  slot : Nat
  uid : Nat
  part : Nat
  state : Nat
  front : Nat := 0
  /-- The state it was held from. -/
  from_ : Nat := 1
  /-- Bounds on their way to its engine, each with its number, or in fixed-latency mode with the cycle in
  which it is due (R292, R333). -/
  due : List (Nat × Option Nat) := []
  /-- Numbers of those whose packets have arrived. -/
  here : List Nat := []
deriving DecidableEq, Repr, Inhabited

/-- A convoy slot (R288). -/
structure Convoy where
  gen : Nat := 1
  vf : Nat := 0
  addr : Nat := 0
  rein : Nat := 0
  g : Nat := 32
  members : Tbl Member := []
deriving DecidableEq, Repr, Inhabited

/-- A global seal entry (R303). -/
structure GSeal where
  blockUid : Nat
  vf : Nat
  asid : Nat
  addr : Nat
  len : Nat
  scope : Nat
  /-- Its block has ended: it goes once no copy that it alone covers serves a read (R305). -/
  ended : Bool := false
deriving DecidableEq, Repr, Inhabited

/-- A replica of a unit of a sealed range: the unit, the address that is sealed, and the unit of the other
die's reserve frames in which the copy is stored (R304, R356). `reads` lists the requests that it serves. -/
structure Replica where
  target : Nat
  pa : Nat
  unit : Nat
  vf : Nat
  asid : Nat
  va : Nat
  frame : Nat
  leaf : Leaf := {}
  reads : List Nat := []
deriving DecidableEq, Repr, Inhabited

/-- One die (R278 to R330, R336 to R356, R385). Router buffers are keyed
64 × router + 8 × port + channel, output ports 8 × router + port, lane buffers
8 × (lane, or 4 + lane for bridge V) + channel. -/
structure Die where
  /-- DRAM bytes in the order of R345 (dramCell), and the granule under which each sector of the
  address space was last written. -/
  hbm : Tbl Byte := []
  wgran : Tbl Nat := []
  /-- The value last written to each byte, which a walk of the page tables reads (R341). -/
  plain : Tbl Byte := []
  side : Tbl Byte := []
  stops : Tbl Stop := []
  quarantine : Tbl Nat := []
  asidT : Tbl DWord := []
  seg : Tbl DWord := []
  hostSeg : Tbl DWord := []
  xlat : List Req := []
  tlb : List TlbEntry := []
  walks : List Walk := []
  convoys : Tbl Convoy := []
  joins : List Ask := []
  gseals : List GSeal := []
  sealReqs : List Ask := []
  unsealReqs : List Ask := []
  replicas : List Replica := []
  bufs : Tbl (List Slot) := []
  lanes : Tbl (List Slot) := []
  ports : Tbl Port := []
  lfsr : Tbl Nat := []
  slotIndex : Nat := 0
  mesharb : Word := 0x00800014
  mesharbNew : Option Word := none
  staging : Tbl Nat := []
  slotcmd : Word := 0
  ageIdx : Nat := 0
  vgb : Nat := 0
  fcap : Nat := 0
  /-- A re-plan asked for by REPLAN (R381). -/
  replan : Bool := false
  /-- When its last plan was made (R385). -/
  planAt : Nat := 0
  /-- Routers purging a partition, with the partition and the end of the purge (R329). -/
  purging : List (Nat × Nat × Nat) := []
  /-- Input buffers that asserted their stall bit at the end of the last cycle (R315). -/
  stalls : List Nat := []
  /-- Input ports, keyed 8 × router + port, with the first cycle in which each takes another flit from
  outside the mesh (R307). -/
  busy : Tbl Nat := []
  /-- Packets granted to a local or stop output in this cycle, with the port, keyed as in `ports`: they
  are delivered in the next one (R324). -/
  leaving : List (Nat × Packet) := []
  /-- Confirmations and convoy bounds that have not entered the mesh. -/
  outCtl : List Packet := []
  /-- The lane buffers whose stall bit was asserted at the end of each of the last 24 cycles, the latest
  first, and the bits that have crossed back (R316). -/
  laneHist : List (List Nat) := []
  laneSeen : List Nat := []
deriving DecidableEq, Repr, Inhabited

/-- One launch queue (R372). -/
structure LQueue where
  base : DWord := 0
  size : Nat := 0
  qwp : Word := 0
  qrp : Word := 0
  enable : Bool := false
  qerr : Bool := false
deriving DecidableEq, Repr, Inhabited

/-- One function: a VF, or the PF as function 64 (R372, R373, R377, R378, R381). -/
structure Fn where
  queues : Tbl LQueue := []
  evbase : DWord := 0
  evsize : Nat := 0
  evwp : Word := 0
  evrp : Word := 0
  evdrop : Bool := false
  contained : Bool := false
  devloss : Bool := false
  poisen : Nat := 0
  /-- Its selective IDE stream is established (R370). -/
  ide : Bool := false
  /-- A function-level reset is in progress (R379). -/
  resetting : Bool := false
deriving DecidableEq, Repr, Inhabited

/-- A process-group table (R394). -/
structure PGroup where
  ndim : Nat := 0
  size : Nat := 1
  rank : Nat := 0
  key : Word := 0
  ext : List Nat := [1, 1, 1]
  /-- Link and neighbour rank for minus and plus of dimensions 0 to 2. -/
  links : List (Nat × Nat) := []
deriving DecidableEq, Repr, Inhabited

/-- A task whose group has ended, until its writes are visible at DIE scope (R232): the core and number
of the group, the task, whether a thief runs it, and what its table is to record. -/
structure TaskEnd where
  core : Nat
  uid : Nat
  owner : Nat
  entry : Nat
  gen : Nat
  /-- The cause with which it failed. -/
  failed : Option Nat
deriving DecidableEq, Repr, Inhabited

/-- What the first fatal end of a launch reports (R225, R375, R377). -/
structure Report where
  cause : Nat
  pc : DWord
  info : Word
  gid : Nat
  blockId : Nat
  gang : Nat
  core : Nat
  cyc : Nat
  /-- The time of the end on the arithmetic clock, which orders reports of different cores. -/
  at_ : Nat
deriving DecidableEq, Repr, Inhabited

/-- A launch taken from a queue (R374 to R376). -/
structure Launch where
  id : Nat
  fn : Nat
  vf : Nat
  asid : Nat
  priv : Bool
  object : Nat
  prog : Nat
  lanes : Nat
  groups : Nat
  gangp : Nat
  gangf : Nat
  spad : Nat
  gangs : Nat
  nextGang : Nat
  endGang : Nat
  pg : PGroup
  wdog : Nat
  lid : Word
  preds : List Word
  prio : Nat
  trapEntry : Option Nat
  jobrec : Bool
  jraddr : DWord
  nonce : List Word
  start : List Word
  record : List Byte
  fwdig : List Byte
  fault : Option Report := none
deriving DecidableEq, Repr, Inhabited

/-- A group program of a code object (R75). -/
structure ProgInfo where
  entry : DWord := 0
  foot : Nat := 8
  padN : Nat := 0
  lanes : Nat := 96
  groups : Nat := 1
  gangp : Nat := 1
  gangf : Nat := 1
  spad : Nat := 512
deriving DecidableEq, Repr, Inhabited

/-- A loaded code object (R69, R75): the address space and address that name it, its group programs, handlers (index to program of the
handler's label), spad image and bytes. -/
structure CodeObj where
  asid : Nat
  addr : Nat
  progs : List ProgInfo
  handlers : Tbl ProgInfo
  image : List Byte
  bytes : List Byte
deriving DecidableEq, Repr, Inhabited

/-- A combiner entry (R399, R401). -/
structure Combine where
  num : Nat
  key : Word
  tag : Word
  op : Nat
  w1 : Word
  w10 : Word
  w11 : Word
  root : Nat
  launch : Nat
  firstAt : Nat
  parts : List FabPkt
  acc : List Word
  bad : List (Nat × Nat) := []
  status : Word := 0
  rootIn : Bool := false
deriving DecidableEq, Repr, Inhabited

/-- One Filzia link (R390 to R393). State 0 down, 1 training, 2 up. -/
structure Link where
  state : Nat := 0
  txCount : Nat := 0
  rxCount : Nat := 0
  /-- How often the keys and salts of its two directions have been set (R393). -/
  keyGen : Nat := 0
  /-- Failures in a row at this receiver, which then waits for the retry of a frame. -/
  fails : Nat := 0
  retry : Bool := false
  /-- Frames that the neighbour has still to bring across, in order, and packets queued to leave. -/
  inbound : List Frame := []
  outbound : List FabPkt := []
  /-- The last 64 frames sent, those of them that the neighbour has asked for again, the one that it asked for
  last, and how often in a row it has (R393). -/
  replay : List Frame := []
  resend : List Frame := []
  asked : Option Nat := none
  txFails : Nat := 0
  /-- The frame sent in the last cycle. -/
  line : Option Frame := none
  /-- Channels for which the neighbour shows a stall, and those for which this receiver shows one, numbered
  2K + C (R391, R392). -/
  stalls : List Nat := []
  shown : List Nat := []
deriving DecidableEq, Repr, Inhabited

/-- A request at a host port in arrival order (R344, R361, R362, R371). -/
structure HostReq where
  req : Req
  port : Nat
  addr : Nat
deriving DecidableEq, Repr, Inhabited

/-- A write or atomic that has not performed at its home (R362). Stage 0 in the issuing die's mesh,
1 past the bridge, 2 accepted by a host port. -/
structure Fly where
  id : Nat
  core : Nat
  uid : Nat
  seq : Nat
  launch : Nat
  vf : Nat
  owner : Nat
  die : Nat
  stage : Nat
  va : Nat := 0
  /-- The block and interval whose command it belongs to, until it performs (R217, R219). -/
  block : Nat := 0
  buid : Nat := 0
  interval : Nat := 0
  /-- A rollback of that interval has stopped it: it will not perform (R219). -/
  off : Bool := false
  /-- Where the 64 bytes lie that it writes to, once another write of its command to them has performed
  (R368). -/
  part : Option (Nat × Nat) := none
deriving DecidableEq, Repr, Inhabited

/-- The contents of a checkpoint on the tier (R380). -/
structure Tier where
  da : DWord
  db : DWord
  whole : Bool
  vf : Nat
  hbm : Tbl (Tbl Byte)
  plain : Tbl (Tbl Byte)
  side : Tbl (Tbl Byte)
  wgran : Tbl (Tbl Nat)
  poison : List (Nat × Nat × Nat)
  images : List (Nat × Saved)
  /-- The channels of those blocks: core, channel and what it holds (R204). -/
  chans : List (Nat × Nat × Chan) := []
  /-- Where the segments lie in the stream of bytes: die, start, length and place; and whether poisoned units went
  with CXL poison (R378, R380, log entry 25). -/
  segs : List (Nat × Nat × Nat × Nat) := []
  cxl : Bool := false
deriving DecidableEq, Repr, Inhabited

/-- A checkpoint or restore in progress or the scope it left pre-empted (R380). -/
structure Ckpt where
  restore : Bool
  whole : Bool
  vf : Nat
  startedAt : Nat
  /-- It has ended and its scope waits for RESUME. -/
  ended : Bool := false
deriving DecidableEq, Repr, Inhabited

/-- Configuration registers of the PF's BAR (R381, R388). -/
structure PfRegs where
  ckpt : DWord := 0
  ckptda : DWord := 0
  ckptdb : DWord := 0
  ctxcmd : Word := 0
  ctxloc : Word := 0
  ctxaddr : DWord := 0
  ctxlen : Word := 0
  /-- The PF's host segment in the layout of R343, and whether the receivers at the host ports handle poison for the
  PF (R380, R381); the spec gives them no register (log entry 25). -/
  hostSeg : DWord := 0
  poisen : Bool := false
  /-- The block of a context save or discard in progress: core, slot and number (R388). -/
  ctxRun : Option (Nat × Nat × Nat) := none
deriving DecidableEq, Repr, Inhabited

/-- Boot and identity (R382 to R384): firmware stages staged for power-on, the measurement log, and
what SPDM last answered. -/
structure Trust where
  stages : List (List Byte × List Byte) := []
  log : List (List Byte) := []
  booted : Bool := false
  halted : Bool := false
  jobs : Nat := 0
  /-- Measurement answers signed since boot (R383). -/
  answers : Nat := 0
  answer : List Byte := []
deriving DecidableEq, Repr, Inhabited

/-- What an agent outside the device does: the model's own inputs. -/
inductive Env where
  /-- The host or the safe tier writes bytes of host physical memory. -/
  | hostWrite (addr : Nat) (bytes : List Byte)
  /-- System software writes bytes of a die's HBM at a physical address, as they are to be stored. -/
  | hbmWrite (die addr : Nat) (bytes : List Byte)
  /-- A DRAM error changes a stored byte of a die's HBM, by its place in the order of R345. -/
  | dramError (die cell : Nat) (b : Byte)
  /-- System software, or a DRAM error, changes a side byte of a die's HBM. -/
  | sideWrite (die index : Nat) (b : Byte)
  /-- Service by system software removes a quarantine entry (R353). -/
  | service (die frame : Nat)
  /-- Firmware's write of a unit enters a die's mesh at a router: firmware traffic (R309). -/
  | firmware (die router : Nat) (r : Req)
  /-- A core's engines can, or cannot, take a reply (R316). -/
  | noReply (core : Nat) (b : Bool)
  /-- Before the first cycle, the slot index of a die stands at another value (R322). -/
  | slotStart (die index : Nat)
  /-- A neighbour device shows these channels of a link stalled (R392). -/
  | linkStalls (link : Nat) (vcs : List Nat)
  /-- Software reads 4 or 8 bytes of a register of a VF, or for 64 of the PF (R387). -/
  | regRead (fn offset size : Nat)
  /-- A loader places a code object. -/
  | loadObject (o : CodeObj)
  /-- A neighbour device sends a frame over a link. -/
  | peer (link : Nat) (f : Frame)
  /-- A neighbour device asks for a frame of a link again, by its counter (R393). -/
  | linkRetry (link count : Nat)
  /-- System software sets the PF's host segment and its poison enable (R380, R381, log entry 25). -/
  | pfSegment (seg : DWord) (poisen : Bool)
  /-- Firmware stages are presented for the next boot. -/
  | stages (l : List (List Byte × List Byte))
  /-- A slice entry is given up, for room or for a parity error (R341). -/
  | dropSlice (die index : Nat)
  /-- A core gives up a fetched block for room (R366). -/
  | dropCode (core index : Nat)
  /-- An uncorrectable error strikes the undo journal of a block, or is to be found while that is written
  back (R221). -/
  | journalError (core block : Nat)
deriving DecidableEq, Repr, Inhabited

/-- One move of one agent. -/
inductive Action where
  /-- An event or engine step of the opcode table. -/
  | ev (i : Instr)
  /-- An issue decision of a core (R211, R212): the groups and splits that interlocks hold, and
  whether a second split may join the packet. -/
  | issue (core : Nat) (heldGroups : List Nat) (heldSplits : List (Nat × Nat)) (pair : Bool)
  /-- The split that waits in an instruction (WAIT 3) tries again to complete it. -/
  | poll (core slot split : Nat)
  /-- One cycle of the clock passes. -/
  | tick
  /-- An agent outside acts. -/
  | env (e : Env)
  /-- What the next act of a command is to be about (R9, R188, R189). -/
  | aim (core seq : Nat) (a : Aim)
  /-- The oldest load of a group that has not performed does (R187). -/
  | load (core slot : Nat)
  /-- The next request that a stop takes is to be number `n` of those that have arrived (R281). -/
  | aimStop (die stop n : Nat)
deriving Repr, Inhabited, DecidableEq

/-- What the last executed instruction did. -/
inductive Mark where
  /-- It had its effect. -/
  | done
  /-- It trapped. -/
  | trapped
  /-- It was held at issue without effect, or was an event that cannot happen in the state. -/
  | held
  /-- It waits (WAIT 1, 2 or 3). -/
  | waiting
deriving DecidableEq, Repr, Inhabited

/-- The issuing split: core, group slot and split id. -/
structure Cur where
  core : Nat := 0
  slot : Nat := 0
  split : Nat := 0
deriving DecidableEq, Repr, Inhabited

/-- The whole machine. -/
structure State where
  cores : Tbl Core := []
  clusters : Tbl Cluster := []
  dies : Tbl Die := []
  fns : Tbl Fn := []
  launches : List Launch := []
  objects : List CodeObj := []
  links : Tbl Link := []
  fabric : List FabPkt := []
  contribs : List FabPkt := []
  results : List FabPkt := []
  rcopies : List FabPkt := []
  /-- Deliveries of messages of groups that are context-saved, by group number (R200). -/
  lateSent : Tbl Nat := []
  /-- Entries of context-saved blocks that completed with a status, code and operand (R274, R276). -/
  lateMtx : List (MEntry × Nat × Nat) := []
  combiner : List Combine := []
  fly : List Fly := []
  hostMem : Tbl Byte := []
  hostPoison : Tbl Bool := []
  hostReqs : List HostReq := []
  /-- The process-group tables that this device has read, each with the VF of its launch, by JOBKEY: it forwards
  by them (R394, R397). -/
  jobs : List (Nat × PGroup) := []
  /-- Tasks that have ended and whose release is still to come (R232). -/
  taskEnds : List TaskEnd := []
  reports : List (Nat × Nat × Nat × Nat) := []
  pf : PfRegs := {}
  /-- What software's last read of a register returned (R387). -/
  readReg : DWord := 0
  ckpt : Option Ckpt := none
  tier : List Tier := []
  trust : Trust := {}
  fixlat : Bool := false
  d3hot : Bool := false
  limiting : Bool := false
  lastCluster : Option Nat := none
  gridSeq : Nat := 0
  uidSeq : Nat := 0
  reqSeq : Nat := 0
  now : Nat := 0
  stepNo : Nat := 0
  free : Nat := 0
  script : List Action := []
  cur : Cur := {}
  mark : Mark := .done
  pre : Option GRegs := none
deriving DecidableEq, Repr, Inhabited

/-- The reasons a step stops the machine. -/
inductive Fault where
  /-- An encoded instruction was executed while State.cur names no live split: raised by every
  meaning of an encoded instruction. Safe: no hardware issues an instruction of no split. -/
  | noIssuer
deriving DecidableEq, Repr, Inhabited

/-- The reasons an instruction is refused. -/
inductive Refusal where
  /-- The instruction of that mnemonic has no meaning yet: raised by Dispatch alone. Safe. -/
  | notModelled (mnemonic : String)
deriving DecidableEq, Repr, Inhabited

/-- The machine right after device reset: every table empty and every register at its reset value
(INVENTORY.md, State; log entries 1 to 19 for values the spec does not give). -/
def State.reset : State := {}

/-- The outcome of an instruction. -/
abbrev Out := Host.Outcome State Fault Refusal

end Sys2Proof.Machine
end

