-- ==== Sys2Proof/Machine/Ops.lean ====
section
/-!
DEFINITION. The named operations over the machine: access to its parts, registers, the scratchpad
with its journal, splits and their places, the end of groups and blocks, rollback, taking a trap and
returning from one. Every meaning is written over these.
-/
namespace Sys2Proof.Machine

/-! ### Access to the parts -/

/-- Core `c`. -/
def State.core (s : State) (c : Nat) : Core := tget {} s.cores c
/-- Core `c` replaced. -/
def State.setCore (s : State) (c : Nat) (x : Core) : State := { s with cores := tset {} s.cores c x }
/-- Core `c` changed by `f`. -/
def State.modCore (s : State) (c : Nat) (f : Core → Core) : State := s.setCore c (f (s.core c))
/-- The group in slot `g` of core `c`. -/
def State.group? (s : State) (c g : Nat) : Option Group := tfind? (s.core c).groups g
/-- The group in slot `g` of core `c` changed by `f`. -/
def State.modGroup (s : State) (c g : Nat) (f : Group → Group) : State :=
  s.modCore c fun x => { x with groups := tmod x.groups g f }
/-- The block in slot `b` of core `c`. -/
def State.block? (s : State) (c b : Nat) : Option Block := tfind? (s.core c).blocks b
/-- The block in slot `b` of core `c` changed by `f`. -/
def State.modBlock (s : State) (c b : Nat) (f : Block → Block) : State :=
  s.modCore c fun x => { x with blocks := tmod x.blocks b f }
/-- Die `d`. -/
def State.die (s : State) (d : Nat) : Die := tget {} s.dies d
/-- Die `d` changed by `f`. -/
def State.modDie (s : State) (d : Nat) (f : Die → Die) : State :=
  { s with dies := tset {} s.dies d (f (s.die d)) }
/-- Cluster `k`. -/
def State.cluster (s : State) (k : Nat) : Cluster := tget {} s.clusters k
/-- Cluster `k` changed by `f`. -/
def State.modCluster (s : State) (k : Nat) (f : Cluster → Cluster) : State :=
  { s with clusters := tset {} s.clusters k (f (s.cluster k)) }
/-- Function `n`: a VF, or the PF as 64. -/
def State.fn (s : State) (n : Nat) : Fn := tget {} s.fns n
/-- Function `n` changed by `f`. -/
def State.modFn (s : State) (n : Nat) (f : Fn → Fn) : State :=
  { s with fns := tset {} s.fns n (f (s.fn n)) }
/-- Stop `t` of die `d`. -/
def State.stop (s : State) (d t : Nat) : Stop := tget {} (s.die d).stops t
/-- Stop `t` of die `d` changed by `f`. -/
def State.modStop (s : State) (d t : Nat) (f : Stop → Stop) : State :=
  s.modDie d fun x => { x with stops := tset {} x.stops t (f (tget {} x.stops t)) }

/-- Die, cluster (device-wide) and core number within the cluster of core `c` (R14). -/
def dieOf (c : Nat) : Nat := c / 64
def clusterOf (c : Nat) : Nat := c / 4
def coreNo (c : Nat) : Nat := c % 4

/-- The cycle count of core `c` (R238). -/
def State.cycle (s : State) (c : Nat) : Nat := s.now - (s.core c).epoch

/-- A number that no start, request or walk has used. -/
def State.freshUid (s : State) : Nat × State := (s.uidSeq, { s with uidSeq := s.uidSeq + 1 })

/-- The next free value's index. -/
def State.freshFree (s : State) : Nat × State := (s.free, { s with free := s.free + 1 })

/-! ### Lane masks (R79) -/

/-- Lanes `lo` to `hi - 1`. -/
def laneRange (lo hi : Nat) : LaneMask := BitVec.ofNat 96 ((2 ^ hi - 1) / 2 ^ lo * 2 ^ lo)
/-- The launched lanes. -/
def launchedMask (nlanes : Nat) : LaneMask := laneRange 0 nlanes
/-- Launched and helper lanes. -/
def presentMask (nlanes : Nat) : LaneMask := laneRange 0 ((nlanes + 3) / 4 * 4)
/-- The helper lanes: HELP0 to HELP2. -/
def helperMask (nlanes : Nat) : LaneMask := presentMask nlanes &&& ~~~launchedMask nlanes
/-- The lanes of a mask in increasing order. -/
def lanesOf (m : LaneMask) : List Nat := (rangeFrom 0 96).filter fun l => m.getLsbD l
/-- The lowest lane of a mask. -/
def lowestLane (m : LaneMask) : Option Nat := leastFrom (fun l => m.getLsbD l) 0 96
/-- The mask of a list of lanes. -/
def maskOfLanes (l : List Nat) : LaneMask := l.foldl (fun m n => m ||| (1#96 <<< n)) 0
/-- The number of lanes of a mask. -/
def countLanes (m : LaneMask) : Nat := (lanesOf m).length

/-! ### The issuing split -/

/-- What an instruction sees of its issue: the core, the group and its slot, the split and the
block. -/
structure Ctx where
  core : Nat
  slot : Nat
  grp : Group
  sp : Split
  blk : Block
  /-- The registers it reads: those from before the packet (R95). -/
  rd : GRegs

/-- The split of that id which may issue: a handler split while a trap is in progress (R165). -/
def Group.issues (g : Group) (id : Nat) (p : Split) : Bool :=
  decide (p.id = id) && (p.handler == g.trap.active)

/-- The issuing split, or none when State.cur names none. -/
def State.ctx? (s : State) : Option Ctx :=
  match s.group? s.cur.core s.cur.slot with
  | none => none
  | some g =>
    match g.splits.find? (g.issues s.cur.split), s.block? s.cur.core g.block with
    | some p, some b =>
      some { core := s.cur.core, slot := s.cur.slot, grp := g, sp := p, blk := b,
             rd := s.pre.getD g.regs }
    | _, _ => none

/-- A meaning over the issuing split. -/
def State.issue (s : State) (f : Ctx → Out) : Out :=
  match s.ctx? with
  | none => .fault .noIssuer
  | some cx => f cx

/-- The issuing split changed by `f`. -/
def State.modSplit (s : State) (cx : Ctx) (f : Split → Split) : State :=
  s.modGroup cx.core cx.slot fun g =>
    { g with splits := g.splits.map fun p => if g.issues cx.sp.id p then f p else p }

/-- The issuing group changed by `f`. -/
def State.modG (s : State) (cx : Ctx) (f : Group → Group) : State := s.modGroup cx.core cx.slot f
/-- The issuing group's block changed by `f`. -/
def State.modB (s : State) (cx : Ctx) (f : Block → Block) : State :=
  s.modBlock cx.core cx.grp.block f

/-- Bits of STAT set by the hardware in this cycle (R91, R133). -/
def Group.setFlag (g : Group) (flag : Word) : Group :=
  { g with stat := g.stat ||| flag, statNow := g.statNow ||| flag }

/-- Bits of STAT of a group set. -/
def State.setStat (s : State) (c g : Nat) (flag : Word) : State :=
  s.modGroup c g fun x => x.setFlag flag

/-- Addresses are 56 bits: the sum of a PC and an offset (R49). -/
def addr56 (a : Nat) : DWord := BitVec.ofNat 64 (a % 2 ^ 56)

/-- The address of the word after an instruction, past its literal when LX = 1 (R40). -/
def Split.nextPc (p : Split) (lx : BitVec 1) : DWord := addr56 (p.pc.toNat + 8 + 8 * lx.toNat)

/-- The split goes on at `pc`, ready, and waits in no instruction. -/
def Split.goOn (p : Split) (pc : DWord) : Split :=
  { p with pc := pc, wait := 0, await := .none, waitI := none }

/-- The machine after the instruction has had its effect: the split goes on at `pc`. -/
def State.wentTo (s : State) (cx : Ctx) (pc : DWord) : State :=
  { s.modSplit cx fun p => p.goOn pc with mark := .done }

/-- The instruction has its effect, and the split goes on at `pc`. -/
def State.goTo (s : State) (cx : Ctx) (pc : DWord) : Out := .next (s.wentTo cx pc)

/-- The instruction has its effect, and the split goes on at the next word. -/
def State.advance (s : State) (cx : Ctx) (lx : BitVec 1) : Out := s.goTo cx (cx.sp.nextPc lx)

/-- The instruction waits (WAIT 3), keeping `a` (R143). -/
def State.waitIn (s : State) (cx : Ctx) (i : Instr) (a : Await) : Out :=
  .next { s.modSplit cx fun p => { p with wait := 3, await := a, waitI := some i } with
    mark := .waiting }

/-- The instruction is held at issue: only time passes (R186, R206). -/
def State.heldAt (s : State) : Out := .next { s with mark := .held }

/-- An event or engine step that cannot happen in this state: nothing happens (log entry 1). -/
def State.noEvent (s : State) : Out := .next { s with mark := .held }

/-! ### Scalar, mask and vector registers (R82 to R87) -/

/-- Scalar register `n` as a split reads it: s0 to s55 are the group's, s56 to s59 the split's, s60 is
fmt and s61 to s63 are exec (R83 to R86). -/
def readS (r : GRegs) (p : Split) (n : Nat) : Word :=
  if n < 56 then tget 0 r.s n
  else if n = 56 then p.s56
  else if n = 57 then p.s57
  else if n = 58 then p.s58
  else if n = 59 then p.s59
  else if n = 60 then p.fmt
  else p.exec.extractLsb' (32 * (n - 61)) 32

/-- Scalar register `n` of the issuing split (R83). -/
def Ctx.s (cx : Ctx) (n : Nat) : Word := readS cx.rd cx.sp n

/-- A scalar pair, low register first. -/
def Ctx.spair (cx : Ctx) (n : Nat) : DWord := (cx.s (n + 1)) ++ (cx.s n)

/-- `exec` with word `b` of it written, inside the domain (R85). -/
def writeExec (p : Split) (b : Nat) (w : Word) : Split :=
  let keep := p.exec &&& ~~~((BitVec.ofNat 96 0xFFFFFFFF) <<< (32 * b))
  { p with exec := keep ||| (((w.setWidth 96) <<< (32 * b)) &&& p.domain) }

/-- A split's own scalar register written (R83, R85, R86). -/
def Split.setS (p : Split) (n : Nat) (w : Word) : Split :=
  if n = 56 then { p with s56 := w }
  else if n = 57 then { p with s57 := w }
  else if n = 58 then { p with s58 := w }
  else if n = 59 then { p with s59 := w }
  else if n = 60 then { p with fmt := w }
  else writeExec p (n - 61) w

/-- Scalar register `n` written by the issuing split (R84, R85). -/
def State.setS (s : State) (cx : Ctx) (n : Nat) (w : Word) : State :=
  if n < 56 then s.modG cx fun g => { g with regs := { g.regs with s := tset 0 g.regs.s n w } }
  else s.modSplit cx fun p => p.setS n w

/-- A scalar pair written, low register first. -/
def State.setSPair (s : State) (cx : Ctx) (n : Nat) (w : DWord) : State :=
  (s.setS cx n (w.extractLsb' 0 32)).setS cx (n + 1) (w.extractLsb' 32 32)

/-- Mask register `n`; k0 reads as all ones (R87). -/
def Ctx.k (cx : Ctx) (n : Nat) : LaneMask :=
  if n = 0 then BitVec.allOnes 96 else tget 0 cx.rd.k n

/-- Mask register `n` written in the lanes of `at_` with the bits of `w`; writes to k0 are ignored
(R87). -/
def State.setK (s : State) (cx : Ctx) (n : Nat) (at_ w : LaneMask) : State :=
  if n = 0 then s
  else s.modG cx fun g =>
    { g with regs := { g.regs with
        k := tset 0 g.regs.k n ((tget 0 g.regs.k n &&& ~~~at_) ||| (w &&& at_)) } }

/-- Lanes that take part under KM (R39). -/
def Ctx.active (cx : Ctx) (km : BitVec 3) : LaneMask := cx.sp.exec &&& cx.k km.toNat

/-- Helper lanes of the group (R79). -/
def Ctx.helpers (cx : Ctx) : LaneMask := helperMask cx.grp.nlanes

/-- Participants: launched lanes that take part (R117). -/
def Ctx.participants (cx : Ctx) (km : BitVec 3) : LaneMask := cx.active km &&& ~~~cx.helpers

/-- Whether the split's domain holds a launched lane (R192). -/
def Ctx.anyLaunched (cx : Ctx) : Bool := decide (cx.sp.domain &&& ~~~cx.helpers ≠ 0)

/-- Vector register `r` of lane `l`. -/
def Ctx.v (cx : Ctx) (r l : Nat) : Word := tget 0 cx.rd.v (96 * r + l)

/-! ### The undo journal (R216) -/

/-- Cost of a record and the core whose journal holds it. -/
def JRec.cost (own : Nat) : JRec → Nat × Nat
  | .vreg .. => (own, 400)
  | .line c .. => (c, 48)
  | .sealing .. => (own, 16)

/-- Bytes of the journal of core `c` in use. -/
def State.journalUsed (s : State) (c : Nat) : Nat :=
  (rangeFrom (clusterOf c * 4) 4).foldl (fun n w =>
    (s.core w).blocks.foldl (fun n kb =>
      n + (if w = c then 1024 * kb.2.grecs.length else 0) +
        kb.2.jrecs.foldl (fun m r => if (r.cost w).1 = c then m + (r.cost w).2 else m) 0) n) 0

/-- A record made for a first write, unless the item is recorded or the journal is full: then JFULL
is set and the block's records are freed. -/
def State.journal (s : State) (c b : Nat) (same : JRec → Bool) (rec_ : JRec) : State :=
  match s.block? c b with
  | none => s
  | some k =>
    if k.jfull || k.jrecs.any same then s
    else if s.journalUsed (rec_.cost c).1 + (rec_.cost c).2 ≤ 262144 then
      s.modBlock c b fun k => { k with jrecs := rec_ :: k.jrecs }
    else s.modBlock c b fun k => { k with jfull := true, jrecs := [], grecs := [] }

/-- The lanes of vector register `r` in a register file. -/
def vregLanes (t : Tbl Word) (r : Nat) : Tbl Word :=
  t.filter fun kv => decide (96 * r ≤ kv.1 ∧ kv.1 < 96 * r + 96)

/-- The journal record, in block `b`, of a vector register of its group before the first write. -/
def State.journalReg (s : State) (c slot b r : Nat) : State :=
  match s.group? c slot with
  | none => s
  | some g =>
    s.journal c b
      (fun x => match x with
        | .vreg _ u rg _ => decide (u = g.uid ∧ rg = r)
        | _ => false)
      (.vreg slot g.uid r (vregLanes g.regs.v r))

/-- The same for the issuing group. -/
def State.journalV (s : State) (cx : Ctx) (r : Nat) : State := s.journalReg cx.core cx.slot cx.grp.block r

/-- Vector register `r` written in the lanes of `m` with the values `f` (R92). -/
def State.setV (s : State) (cx : Ctx) (r : Nat) (m : LaneMask) (f : Nat → Word) : State :=
  if m = 0 then s
  else
    (s.journalV cx r).modG cx fun g =>
      { g with regs := { g.regs with
          v := (lanesOf m).foldl (fun t l => tset 0 t (96 * r + l) (f l)) g.regs.v } }

/-! ### The scratchpad (R170 to R179) -/

/-- Bytes `a` to `a + n - 1` of a memory table, lowest address first. -/
def tblBytes (t : Tbl Byte) (a n : Nat) : List Byte := (rangeFrom a n).map fun x => tget 0 t x

/-- A little-endian number from bytes (R12). -/
def leNat : List Byte → Nat
  | [] => 0
  | b :: t => b.toNat + 256 * leNat t

/-- The `n` low bytes of a number, little-endian (R12). -/
def natLe (w : Nat) : Nat → List Byte
  | 0 => []
  | n + 1 => BitVec.ofNat 8 w :: natLe (w / 256) n

/-- Addresses paired with bytes from `a` up. -/
def cellsAt : Nat → List Byte → List (Nat × Byte)
  | _, [] => []
  | a, b :: t => (a, b) :: cellsAt (a + 1) t

/-- Bytes written to a memory table. -/
def tblWrite (t : Tbl Byte) (a : Nat) : List Byte → Tbl Byte
  | [] => t
  | b :: l => tblWrite (tset 0 t a b) (a + 1) l

/-- The distinct lines (32 bytes) of a list of cells. -/
def linesOf (cells : List (Nat × Byte)) : List Nat := (cells.map fun c => c.1 / 32).eraseDups

/-- Whether the cells cover every byte of a line. -/
def covers (cells : List (Nat × Byte)) (line : Nat) : Bool :=
  (rangeFrom (32 * line) 32).all fun a => cells.any fun c => decide (c.1 = a)

/-- The bytes of scratchpad lines that one instruction or command has written, by 32768 × home core +
line, with those of more cells (R175). -/
def coverLines (t : Tbl (BitVec 32)) (home : Nat) (cells : List (Nat × Byte)) : Tbl (BitVec 32) :=
  cells.foldl (fun t c =>
    let k := 32768 * home + c.1 / 32
    tset 0 t k (tget 0 t k ||| (1#32 <<< (c.1 % 32)))) t

/-- The lines of some cells that are now written whole. -/
def wholeLines (t : Tbl (BitVec 32)) (home : Nat) (cells : List (Nat × Byte)) : List Nat :=
  (linesOf cells).filter fun l => decide (tget 0 t (32768 * home + l) = BitVec.allOnes 32)

/-- The journal record of a line before its first write by the block in slot `b` of core `c`. -/
def State.journalLine (s : State) (c b home line : Nat) : State :=
  let h := s.core home
  s.journal c b
    (fun x => match x with
      | .line cc a _ _ _ => decide (cc = home ∧ a = line)
      | _ => false)
    (.line home line (h.spad.filter fun kv => decide (32 * line ≤ kv.1 ∧ kv.1 < 32 * line + 32))
      (tget false h.poison line) (tget false h.nonres line))

/-- One write of a scratchpad by one instruction or one command step: journal records of the writing
block, the bytes, the poison and non-resident bits, and the reservations it clears (R175, R179,
R193, R216). `poison` and `nonres` say whether the data carries them. -/
def State.writeSpad (s : State) (writer : Option (Nat × Nat)) (home : Nat)
    (cells : List (Nat × Byte)) (poison nonres : Bool) : State :=
  let lines := linesOf cells
  let s1 := match writer with
    | none => s
    | some (c, b) => lines.foldl (fun t l => t.journalLine c b home l) s
  s1.modCore home fun x =>
    { x with
      spad := cells.foldl (fun t c => tset 0 t c.1 c.2) x.spad
      poison := lines.foldl (fun t l =>
        if poison then tset false t l true
        else if covers cells l then tset false t l false else t) x.poison
      nonres := lines.foldl (fun t l =>
        if nonres then tset false t l true
        else if covers cells l then tset false t l false else t) x.nonres
      groups := x.groups.map fun kg =>
        (kg.1, { kg.2 with resv := kg.2.resv.filter fun r =>
          !(cells.any fun c => decide (c.1 / 8 * 8 = r.2)) }) }

/-- Poison or non-resident bits of lines that one instruction or command has written whole in pieces
cleared (R175, R193). -/
def State.clearLines (s : State) (home : Nat) (poison nonres : List Nat) : State :=
  s.modCore home fun x =>
    { x with poison := poison.foldl (fun t l => tset false t l false) x.poison
             nonres := nonres.foldl (fun t l => tset false t l false) x.nonres }

/-- The byte a load of the group returns: its latest queued store to that byte, else the byte last
performed (R187). -/
def Group.loadByte (g : Group) (spad : Tbl Byte) (home a : Nat) : Byte :=
  match (g.q.stores.reverse.filter fun o => decide (o.home = home)).findSome? fun o =>
      (o.cells.reverse.find? fun c => decide (c.1 = a)).map (·.2) with
  | some b => b
  | none => tget 0 spad a

/-- The bytes a load of the group returns. -/
def Ctx.load (cx : Ctx) (s : State) (home a n : Nat) : List Byte :=
  (rangeFrom a n).map fun x => cx.grp.loadByte (s.core home).spad home x

/-- Usable size of a block's allocation (R171). -/
def Block.usable (b : Block) : Nat := b.size - 64 * b.padN

/-- Whether a range of a core's scratchpad overlaps a seal entry of any block there (R185). -/
def State.spadSealed (s : State) (home a n : Nat) : Bool :=
  (s.core home).blocks.any fun kb =>
    kb.2.seals.any fun e => decide (a < kb.2.base + e.1 + e.2 ∧ kb.2.base + e.1 < a + n)

/-- Whether a range of a core's scratchpad touches a poisoned line (R173). -/
def State.spadPoisoned (s : State) (home a n : Nat) : Bool :=
  (rangeFrom (a / 32) ((a + n - 1) / 32 - a / 32 + 1)).any fun l => tget false (s.core home).poison l

/-! ### Buffer handles (R244, R245) -/

/-- The home core and index that a handle names. -/
def handleHome (c : Nat) (h : Word) : Nat := clusterOf c * 4 + bits h 19 18
def handleIdx (h : Word) : Nat := bits h 17 10

/-- The reason for which a handle is not valid for a block, 0 when it is valid: 1 its low bits, 2 a
stale or free entry, 3 another holder (R245, R254). -/
def State.handleReason (s : State) (c b : Nat) (h : Word) : Nat :=
  let e := tget {} (s.core (handleHome c h)).bufs (handleIdx h)
  if bits h 9 0 ≠ 0 then 1
  else if e.gen ≠ bits h 31 20 ∨ e.state = 0 then 2
  else if e.state ≠ 1 ∨ e.hcore ≠ coreNo c ∨ e.hblk ≠ b then 3
  else 0

/-- The entry that a handle names. -/
def State.handleBuf (s : State) (c : Nat) (h : Word) : Buf :=
  tget {} (s.core (handleHome c h)).bufs (handleIdx h)

/-- A generation after its next increment, 0 skipped (R229, R244, R288). -/
def nextGen (g : Nat) : Nat := if g ≥ 4095 then 1 else g + 1

/-- A freed buffer entry (R247). -/
def Buf.freed (b : Buf) : Buf := { gen := nextGen b.gen }

/-! ### Places of splits (R140 to R146) -/

/-- The entries that a group takes: those of its live splits, and those an ended group keeps (R199). -/
def Group.places (g : Group) : List Nat := g.splits.map (·.place) ++ g.kept

/-- The table entries in use on a core. -/
def Core.placesUsed (x : Core) : List Nat :=
  x.groups.foldl (fun l kg => l ++ kg.2.places.filter (· < 64)) []

/-- The paddock entries in use in the block of slot `b`. -/
def Core.padUsed (x : Core) (b : Nat) : List Nat :=
  x.groups.foldl (fun l kg =>
    if kg.2.block = b then l ++ kg.2.places.filter (64 ≤ ·) else l) []

/-- The lowest free entry among `lo` to `lo + n - 1`. -/
def Core.freePlace (x : Core) (lo n : Nat) : Option Nat :=
  leastFrom (fun p => !x.placesUsed.contains p) lo n

/-- Where a new split of block `b` goes: the lowest free table entry (63 first for a handler), else
the lowest free paddock entry (R144, R165). -/
def Core.newPlace (x : Core) (b padN : Nat) (handler : Bool) : Option Nat :=
  let pad := leastFrom (fun p => !(x.padUsed b).contains p) 64 padN
  if handler then
    match x.freePlace 63 1 with
    | some p => some p
    | none => pad
  else
    match x.freePlace 0 62 with
    | some p => some p
    | none => pad

/-- The lowest split id that no live split of the group holds (R142). -/
def Group.newId (g : Group) : Nat :=
  (leastFrom (fun i => !(g.splits.any fun p => decide (p.id = i))) 0 97).getD 96

/-- How long ago a split last issued, in cycles modulo 2^32 (R143). -/
def Split.ageAt (p : Split) (cycle : Nat) : Nat := ((BitVec.ofNat 32 cycle) - p.age).toNat

/-- Whether split `a` of group slot `ga` comes before `b` of slot `gb`: the older AGE, then the lower
group, then the lower id (R146). -/
def older (cycle ga : Nat) (a : Split) (gb : Nat) (b : Split) : Bool :=
  let x := a.ageAt cycle
  let y := b.ageAt cycle
  decide (y < x) || (decide (x = y) && (decide (ga < gb) || (decide (ga = gb) && decide (a.id < b.id))))

/-- The oldest of the splits of a core's groups that satisfy `p`. -/
def Core.oldest (x : Core) (cycle : Nat) (p : Nat → Split → Bool) : Option (Nat × Split) :=
  x.groups.foldl (fun best kg =>
    kg.2.splits.foldl (fun best sp =>
      if p kg.1 sp then
        match best with
        | none => some (kg.1, sp)
        | some (g, q) => if older cycle kg.1 sp g q then some (kg.1, sp) else best
      else best) best) none

/-- A group with one of its splits moved to another place, which takes 4 cycles in which the split does not
issue; a write into the paddock sets STAT.PADSW (R146). -/
def Group.setPlace (g : Group) (id : Nat) (handler : Bool) (place now : Nat) : Group :=
  let h := { g with splits := g.splits.map fun q =>
      if q.id = id ∧ q.handler = handler then { q with place := place, readyAt := Nat.max q.readyAt (now + 4) } else q }
  if 64 ≤ place then h.setFlag statPADSW else h

/-- The scratchpad lines of paddock entry `i` of a block (R145). -/
def Block.padLines (k : Block) (i : Nat) : List Nat :=
  let a := (k.base + k.size - 64 * (k.padN - i)) / 32
  [a, a + 1]

/-- The dormant splits of a group written into its block's paddock: the journal records their lines
(R216). -/
def State.journalPads (s : State) (c g : Nat) : State :=
  match s.group? c g with
  | none => s
  | some y =>
    match s.block? c y.block with
    | none => s
    | some k => ((y.splits.filter fun p => decide (64 ≤ p.place)).flatMap fun p =>
        k.padLines (p.place - 64)).foldl (fun t l => t.journalLine c y.block c l) s

/-- Whether a split is the one whose step a debugger waits for (R168). -/
def Core.stepping (x : Core) (slot : Nat) (p : Split) : Bool :=
  decide (x.dbgHeld = some slot ∧ x.steps.head? = some p.id) &&
    (tfind? x.groups slot).any fun g => g.claimed && (p.handler == g.trap.active)

/-- Dormant ready splits take the free table entries of a core, the oldest first (R146); a dormant split
of a handler is one of them (log entry 70), and so is one that a debugger is to step (log entry 57). -/
def State.moveIn (s : State) (c : Nat) : Nat → State
  | 0 => s
  | fuel + 1 =>
    let x := s.core c
    match x.freePlace 0 62, x.oldest (s.cycle c)
        (fun g p => decide (64 ≤ p.place) && (decide (p.wait = 0) || x.stepping g p)) with
    | some e, some (g, p) =>
      State.moveIn (s.modGroup c g fun g => g.setPlace p.id p.handler e s.now) c fuel
    | _, _ => s

/-- Reservations of the lanes of a mask cleared, those that an LDRES has still to make too (R152). -/
def Group.clearResv (g : Group) (m : LaneMask) : Group :=
  { g with resv := g.resv.filter fun r => !m.getLsbD r.1
           q := { g.q with loads := g.q.loads.map fun o => { o with resv := o.resv.filter fun r => !m.getLsbD r.1 } } }

/-- A scalar register of a group's split written: the split's own copy above s55 (R84, R206). -/
def Group.setS (g : Group) (split : Nat) (handler : Bool) (n : Nat) (w : Word) : Group :=
  if n < 56 then { g with regs := { g.regs with s := tset 0 g.regs.s n w } }
  else { g with splits := g.splits.map fun p => if p.id = split ∧ p.handler = handler then p.setS n w else p }

/-- What loads and receives have still to bring to the own registers of a split that is no more reaches no
split, also when its id is given anew (R142). -/
def Group.orphan (g : Group) : Group :=
  let live (id : Nat) (h : Bool) : Bool := g.splits.any fun p => decide (p.id = id) && p.handler == h
  { g with q := { g.q with
      posted := g.q.posted.map fun p => if live p.split p.handler then p else { p with gone := true }
      loads := g.q.loads.map fun o => if live o.split o.handler then o else { o with split := 128 } } }

/-! ### Convoy membership (R288 to R300) -/

/-- The convoy slot that a group's CVID names. -/
def cvDie (id : Word) : Nat := bits id 7 6
def cvSlot (id : Word) : Nat := bits id 5 0

/-- Fields of CVSTAT set (R300). -/
def cvStat (w : Word) (unh reh : Bool) (cause : Option Nat) (state : Nat) : Word :=
  let u := Nat.min 255 (bits w 31 24 + unh.toNat)
  let r := Nat.min 255 (bits w 23 16 + reh.toNat)
  let c := cause.getD (bits w 15 12)
  BitVec.ofNat 32 (u * 2 ^ 24 + r * 2 ^ 16 + c * 2 ^ 12 + state * 16)

/-- A member of convoy `slot` of die `d` changed. -/
def State.modMember (s : State) (d slot core gslot uid : Nat) (f : Member → Member) : State :=
  s.modDie d fun x => { x with convoys := tmod x.convoys slot fun v =>
    { v with members := v.members.map fun km =>
        if km.2.core = core ∧ km.2.slot = gslot ∧ km.2.uid = uid then (km.1, f km.2) else km } }

/-- Whether a member is hitched: in state hitched, held or rehitched (R291). -/
def Member.isHitched (m : Member) : Bool := m.state == 1 || m.state == 2 || m.state == 4

/-- The hitched members of a convoy other than one index. -/
def Convoy.others (v : Convoy) (i : Nat) : List Member :=
  (v.members.filter fun km => decide (km.1 ≠ i) && km.2.isHitched).map (·.2)

/-- The bound of member `i`: the least frontier of the other hitched members plus the rein, or none
when it has no other (R291). -/
def Convoy.bound (v : Convoy) (i : Nat) : Option Nat :=
  match v.others i with
  | [] => none
  | m :: ms => some (ms.foldl (fun n x => Nat.min n x.front) m.front + v.rein)

/-- The packet that carries a bound to a member's engine (R292, R308, R311). -/
def boundPacket (d slot i : Nat) (m : Member) (n : Nat) : Packet :=
  { dests := [(dieOf m.core, clusterOf m.core % 16, 0)], route := 0, kind := 0, cls := 0, part := m.part
    payload := .bound d slot i m.core m.slot m.uid n }

/-- A bound sent to a member's engine, when it differs from the one sent before it: in fixed-latency mode in
force 40 cycles later, else on its way as a packet (R292, R308, R333). -/
def State.postBound (s : State) (d slot : Nat) (v : Convoy) (i : Nat) (m : Member) : State :=
  let b := v.bound i
  let last := match m.due.getLast? with
    | some x => x.2
    | none => (((s.group? m.core m.slot).getD {}).cv.bound)
  let send (t : State) (n : Nat) : State :=
    t.modMember d slot m.core m.slot m.uid fun m => { m with due := m.due ++ [(n, b)] }
  if b = last then s
  else if s.fixlat then send s (s.now + 40)
  else (send s.freshUid.2 s.freshUid.1).modDie d fun x =>
    { x with outCtl := x.outCtl ++ [boundPacket d slot i m s.freshUid.1] }

/-- The bounds of every member of a convoy sent (R292). -/
def State.sendBounds (s : State) (d slot : Nat) : State :=
  match tfind? (s.die d).convoys slot with
  | none => s
  | some v => v.members.foldl (fun t km => t.postBound d slot v km.1 km.2) s

/-- Held units of a group's commands released (R294). -/
def State.releaseHeld (s : State) (c g uid : Nat) : State :=
  s.modCore c fun x => { x with cmds := x.cmds.map fun m =>
    if m.slot = g ∧ m.uid = uid then { m with held := none } else m }

/-- A group unhitched with a cause: its held units are released, STAT.CVUNH and CVSTAT record it
(R294). Nothing happens to a group that is not hitched. -/
def State.unhitch (s : State) (c g cause : Nat) : State :=
  match s.group? c g with
  | none => s
  | some x =>
    let st := bits x.cv.stat 6 4
    if x.cv.id = 0 ∨ st = 0 ∨ st = 3 then s
    else
      (((s.modMember (cvDie x.cv.id) (cvSlot x.cv.id) c g x.uid fun m =>
          { m with state := 3, due := [], here := [] }).releaseHeld c g x.uid).sendBounds (cvDie x.cv.id)
          (cvSlot x.cv.id)).modGroup c g fun y =>
        { y.setFlag statCVUNH with
                 cv := { y.cv with stat := cvStat y.cv.stat true false (some cause) 3, bound := none } }

/-- A member taken out of the convoy `id`; the slot frees with its last member (R288, R296). -/
def State.dropMember (s : State) (id : Word) (uid : Nat) : State :=
  (s.modDie (cvDie id) fun d =>
    { d with convoys := tmod d.convoys (cvSlot id) fun v =>
        let ms := v.members.filter fun km => decide (km.2.uid ≠ uid)
        if ms.length = v.members.length then v
        else if ms = [] then { gen := nextGen v.gen } else { v with members := ms } }).sendBounds (cvDie id) (cvSlot id)

/-- A group removed from its convoy (R299). -/
def State.leaveConvoy (s : State) (c g : Nat) : State :=
  match s.group? c g with
  | none => s
  | some x =>
    if x.cv.id = 0 then s
    else
      ((s.dropMember x.cv.id x.uid).releaseHeld c g x.uid).modGroup c g fun y =>
        { y with cv := { y.cv with id := 0, slip := 0, off := 0, members := 0, bound := none,
                                   stat := cvStat y.cv.stat false false none 0 } }

/-! ### Commands (R195 to R200) -/

/-- Status bits ORed into the batch of a command: its closed batch, or the unclosed set (R197). -/
def GCmds.orStatus (k : GCmds) (batch : Option Nat) (st : Word) : GCmds :=
  match batch with
  | none => { k with unclosed := { k.unclosed with status := k.unclosed.status ||| st } }
  | some n => { k with batches := tmod k.batches n fun b => { b with status := b.status ||| st } }

/-- Whether batch `n` is complete. -/
def GCmds.complete (k : GCmds) (n : Word) : Bool :=
  match tfind? k.batches n.toNat with
  | none => true
  | some b => decide (b.open_ = 0)

/-- BATCHDONE advanced over complete batches (R195). -/
def GCmds.advanceDone (k : GCmds) : Nat → GCmds
  | 0 => k
  | fuel + 1 =>
    if k.batchDone ≠ k.batchNo ∧ k.complete (k.batchDone + 1) then
      GCmds.advanceDone { k with batchDone := k.batchDone + 1 } fuel
    else k

/-- One command of a batch completes (R195, R198). -/
def GCmds.finish (k : GCmds) (batch : Option Nat) (st : Word) : GCmds :=
  let k1 := k.orStatus batch st
  let k2 := match batch with
    | none => { k1 with unclosed := { k1.unclosed with open_ := k1.unclosed.open_ - 1 } }
    | some n => { k1 with batches := tmod k1.batches n fun b => { b with open_ := b.open_ - 1 } }
  k2.advanceDone 17

/-- A command of core `c` completes with status bits and leaves the engine (R198). -/
def State.finishCmd (s : State) (c : Nat) (m : Cmd) (st : Word) : State :=
  let s1 := s.modCore c fun x => { x with cmds := x.cmds.filter fun y => decide (y.seq ≠ m.seq) }
  match s1.group? c m.slot with
  | none => s1
  | some g =>
    if g.uid = m.uid then
      s1.modGroup c m.slot fun g =>
        { g with cmds := { g.cmds.finish m.batch st with
            p := if m.startedAt = none then g.cmds.p - 1 else g.cmds.p } }
    else s1

/-- A command of core `c` changed. -/
def State.modCmd (s : State) (c seq : Nat) (f : Cmd → Cmd) : State :=
  s.modCore c fun x => { x with cmds := x.cmds.map fun m => if m.seq = seq then f m else m }

/-- A block's interval exposed (R217). -/
def State.expose (s : State) (c b : Nat) : State := s.modBlock c b fun k => { k with exposed := true }

/-- A block's interval exposed by what was issued in interval `n`: the current one alone is (R217). -/
def State.exposeIn (s : State) (c b n : Nat) : State :=
  s.modBlock c b fun k => if k.interval = n then { k with exposed := true } else k

/-! ### Events to the host (R377) -/

/-- Clean bytes of host physical memory written: the poison of the 64-byte units that they cover whole is
gone (R371). -/
def State.writeHost (s : State) (a : Nat) (l : List Byte) : State :=
  { s with hostMem := tblWrite s.hostMem a l
           hostPoison := s.hostPoison.filter fun kv => !decide (a ≤ 64 * kv.1 ∧ 64 * kv.1 + 64 ≤ a + l.length) }

/-- The 64 bytes of an event record (R377). -/
def eventBytes (w0 lid : Word) (cyc : Nat) (w45 : DWord) (w6 w7 : Word) : List Byte :=
  natLe w0.toNat 4 ++ natLe lid.toNat 4 ++ natLe cyc 8 ++ natLe w45.toNat 8 ++ natLe w6.toNat 4 ++
    natLe w7.toNat 4 ++ natLe 0 32

/-- An event written to one function's queue, or dropped when it is full (R377; log entry 75). -/
def State.postEvent (s : State) (f kind cause c : Nat) (lid : Word) (cyc : Nat) (w45 : DWord)
    (w6 w7 : Word) : State :=
  let q := s.fn f
  if (q.evwp - q.evrp).toNat = 2 ^ q.evsize then s.modFn f fun q => { q with evdrop := true }
  else
    let w0 := BitVec.ofNat 32 (kind + cause * 256 + q.evdrop.toNat * 65536 + dieOf c * 2 ^ 17 +
      (clusterOf c % 16) * 2 ^ 19 + coreNo c * 2 ^ 23)
    (s.writeHost (q.evbase.toNat + 64 * (q.evwp.toNat % 2 ^ q.evsize))
      (eventBytes w0 lid cyc w45 w6 w7)).modFn f fun q =>
        { q with evwp := q.evwp + 1, evdrop := false }

/-- An event raised for function `f`: the PF also receives kinds 6, 7, 9, 10 and 11 alone, and a copy
of kinds 4 and 5 (R377). -/
def State.raise (s : State) (f kind cause c : Nat) (lid : Word) (cyc : Nat) (w45 : DWord)
    (w6 w7 : Word) : State :=
  if kind = 6 ∨ kind = 7 ∨ kind = 9 ∨ kind = 10 ∨ kind = 11 then
    s.postEvent 64 kind cause c lid cyc w45 w6 w7
  else if (kind = 4 ∨ kind = 5) ∧ f ≠ 64 then
    (s.postEvent f kind cause c lid cyc w45 w6 w7).postEvent 64 kind cause c lid cyc w45 w6 w7
  else s.postEvent f kind cause c lid cyc w45 w6 w7

/-! ### Launches -/

/-- A launch by its number. -/
def State.launch? (s : State) (id : Nat) : Option Launch := s.launches.find? fun l => decide (l.id = id)
/-- A launch changed. -/
def State.modLaunch (s : State) (id : Nat) (f : Launch → Launch) : State :=
  { s with launches := s.launches.map fun l => if l.id = id then f l else l }
/-- An event of kind 4 or 5 that names a unit at global address `va`: to the PF's queue when it comes of a PF
launch, else to that of VF `vf` (R373, R377, R378). -/
def State.raiseFor (s : State) (launch : Option Nat) (vf kind c va : Nat) : State :=
  match launch.bind s.launch? with
  | some l => s.raise l.fn kind 0 c l.lid (s.cycle c) (BitVec.ofNat 64 va) 0 0
  | none => s.raise vf kind 0 c 0 (s.cycle c) (BitVec.ofNat 64 va) 0 0
/-- The code object of a launch. -/
def State.object? (s : State) (id : Nat) : Option CodeObj :=
  match s.launch? id with
  | none => none
  | some l => s.objects.find? fun o => decide (o.asid = l.asid ∧ o.addr = l.object)
/-- The handler of that index in a launch's code object. -/
def State.handler? (s : State) (id idx : Nat) : Option ProgInfo :=
  match s.object? id with
  | none => none
  | some o => tfind? o.handlers idx

/-- A launch marked faulted with the report of the first group to end (R225, R375). Reports of one
cycle of the arithmetic clock are ordered by GANGID, BLOCKID, GROUPID. -/
def State.fault (s : State) (id : Nat) (r : Report) : State :=
  s.modLaunch id fun l =>
    match l.fault with
    | none => { l with fault := some r }
    | some q =>
      if q.at_ = r.at_ ∧ (r.gang < q.gang ∨ (r.gang = q.gang ∧
          (r.blockId < q.blockId ∨ (r.blockId = q.blockId ∧ r.gid < q.gid)))) then
        { l with fault := some r }
      else l

/-! ### Tasks (R229 to R232, R237) -/

/-- The stolen records of some VFs that a core has not acknowledged given up, each with the acknowledgement that
has not left (R237). -/
def Core.unacked (x : Core) (vf : Nat → Bool) : Core :=
  { x with stolen := x.stolen.filter fun r => r.acked || !vf r.task.vf
           outTasks := x.outTasks.filter fun m => match m with
             | .ack _ r => !vf r.task.vf
             | _ => true }

/-- A task table entry of core `c` changed. -/
def State.modTask (s : State) (c t : Nat) (f : Task → Task) : State :=
  s.modCore c fun x => { x with tasks := tmod x.tasks t f }

/-- A task entry freed, its generation kept for the next use (R229). -/
def Task.freed (t : Task) : Task := { gen := t.gen }

/-- The group that spawned a task has ended: it is on no core, and in no saved block. -/
def State.spawnerGone (s : State) (e : Task) : Bool :=
  s.cores.all fun kc => (kc.2.groups.all fun kg => kg.2.uid != e.spawner) &&
    kc.2.saved.all fun v => v.groups.all fun kg => kg.2.uid != e.spawner

/-- A task entry that has ended: freed when no group is left that could join it (R232). -/
def State.closeTask (s : State) (c t : Nat) (failed : Bool) (cause : Nat) : State :=
  s.modTask c t fun e =>
    if s.spawnerGone e then e.freed else { e with state := if failed then 6 else 5, cause := cause }

/-- The release of an ended task recorded at its table: at once when the block ran on a core that the
distributor chose, by a report that leaves that core when the record was stolen (R232, R237). -/
def State.taskOver (s : State) (z : TaskEnd) : State :=
  let e := tget {} (s.core z.owner).tasks z.entry
  if e.gen ≠ z.gen then s
  else if e.lease ≠ 0 ∧ z.owner ≠ z.core then
    s.modCore z.core fun x => { x with outTasks := x.outTasks ++
      [.report z.owner z.entry z.gen (match z.failed with
        | some cause => 256 + cause
        | none => 0) e.vf] }
  else s.closeTask z.owner z.entry z.failed.isSome (z.failed.getD 0)

/-- A task requeued: REQ counts it, saturating at 15 (R232, R233). -/
def State.taskRequeue (s : State) (k : Block) : State :=
  match k.task with
  | none => s
  | some (owner, t, gen) =>
    s.modTask owner t fun e =>
      if e.gen = gen then { e with state := 1, req := Nat.min 15 (e.req + 1), lease := 0 } else e

/-- The end of a block's task, once its group `uid` is gone: a discarded one returns to its queue; else
its release at DIE scope begins (R221, R232, R233). -/
def State.taskEnded (s : State) (c uid : Nat) (k : Block) : State :=
  match k.task with
  | none => s
  | some (owner, t, gen) =>
    if k.requeue then s.taskRequeue k
    else { s with taskEnds := s.taskEnds ++ [{ core := c, uid, owner, entry := t, gen, failed := k.taskFail }] }

/-- Whether a write that has not performed is visible as a release at a scope asks (R287, R362). -/
def Fly.visible (f : Fly) (scope : Nat) : Bool :=
  f.off || match scope with
  | 4 => if f.owner = 4 then true else decide (f.owner ≠ f.die ∧ 1 ≤ f.stage)
  | 5 => decide (f.owner = 4 ∧ 2 ≤ f.stage)
  | 6 => false
  | _ => true

/-- Ended tasks whose group's writes are all visible at DIE scope recorded at their tables (R232). -/
def State.releaseTasks (s : State) : State :=
  let held (z : TaskEnd) : Bool := s.fly.any fun f => decide (f.core = z.core ∧ f.uid = z.uid) && !f.visible 4
  (s.taskEnds.filter fun z => !held z).foldl State.taskOver { s with taskEnds := s.taskEnds.filter held }

/-! ### Matrix entries -/

/-- A tile restored from its shadow (R267). -/
def Cluster.restore (x : Cluster) (tile : Nat) : Cluster :=
  let rows := x.shadowRows.filter fun r => decide (r / 256 = tile)
  let inRows (k : Nat) : Bool := rows.contains (k / 256)
  { x with
    acc := (x.shadow.filter fun kv => inRows kv.1).foldl (fun t kv => tset 0 t kv.1 kv.2)
      (x.acc.filter fun kv => !inRows kv.1) }

/-- The shadow of a tile given up when its loop completes (R267). -/
def Cluster.dropShadow (x : Cluster) (tile : Nat) : Cluster :=
  { x with shadowRows := x.shadowRows.filter fun r => decide (r / 256 ≠ tile)
           shadow := x.shadow.filter fun kv => decide (kv.1 / 65536 ≠ tile) }

/-- A report in a group's matrix status word (R276). -/
def mstatReport (w : Word) (entry tile opnd code : Nat) : Word :=
  BitVec.ofNat 32 (Nat.min 255 (bits w 31 24 + 1) * 2 ^ 24 + entry * 2 ^ 16 + tile * 2 ^ 14 +
    opnd * 2 ^ 12 + code)

/-- The P and Z bits of MLOOP (R261). -/
def MEntry.p (e : MEntry) : Bool := e.imm.testBit 5
def MEntry.z (e : MEntry) : Bool := e.imm.testBit 4

/-- Both plane tags become none (R263). -/
def Cluster.untag (x : Cluster) : Cluster :=
  { x with active := { x.active with tag := none }, shadowP := { x.shadowP with tag := none } }

/-- What the engine gives up with a loop that had been granted its first pass: the shadow of its tile,
given up already by a parked one, and for P = 0 the plane tags (R263, R267). -/
def Cluster.giveUp (x : Cluster) (e : MEntry) : Cluster :=
  if e.kind = 2 ∧ e.ran then
    let y := if e.state = 3 then x else x.dropShadow e.tile
    if e.p then y else y.untag
  else x

/-- The pending and running matrix entries of a block parked: the tile of a running loop is restored, and the
shadow that any of its loops still keeps is given up (R267, R271). -/
def State.parkEntries (s : State) (c : Nat) (k : Block) : State :=
  s.modCluster (clusterOf c) fun x =>
    let mine (e : MEntry) : Bool := decide (e.core = c ∧ e.buid = k.uid ∧ e.state ≤ 1)
    let y := (x.entries.filter fun e => mine e && decide (e.kind = 2) && e.ran).foldl
      (fun z e => (if e.step ≠ 0 then z.restore e.tile else z).dropShadow e.tile) x
    { y with entries := x.entries.map fun e => if mine e then { e with state := 3, step := 0 } else e }

/-- Entries of a cluster that satisfy `p` leave the table; T counts down for loops that were counted
(R260). -/
def State.dropEntries (s : State) (k : Nat) (p : MEntry → Bool) : State :=
  let gone := (s.cluster k).entries.filter p
  let s1 := s.modCluster k fun x =>
    gone.foldl Cluster.giveUp { x with entries := x.entries.filter fun e => !p e }
  gone.foldl (fun t e =>
    if e.kind = 2 ∧ e.state ≠ 2 then
      t.modGroup e.core e.gslot fun g =>
        if g.uid = e.uid then { g with cmds := { g.cmds with t := g.cmds.t - 1 } } else g
    else t) s1

/-! ### Messages -/

/-- A message discarded with a NACK of a kind to its sender (R208). -/
def State.nackTo (s : State) (c : Nat) (m : Msg) (kind : Nat) : State :=
  s.modCore c fun x => { x with outNacks := x.outNacks ++ [{ m with kind := 2, nack := kind }] }

/-- Where the group of a number stands: core and slot. -/
def State.findGroup (s : State) (uid : Nat) : Option (Nat × Nat) :=
  s.cores.findSome? fun kc => (kc.2.groups.find? fun kg => decide (kg.2.uid = uid)).map fun kg => (kc.1, kg.1)

/-- The S counter of a message's sender counts down; for a group that is context-saved, when it is
restored (R200). It does at a refusal already, before the NACK reaches the error queue (DESIGN CHOICE, log entry
81). -/
def State.sent (s : State) (m : Msg) : State :=
  match s.findGroup m.srcUid with
  | some (c, g) => s.modGroup c g fun g => { g with cmds := { g.cmds with s := g.cmds.s - 1 } }
  | none =>
    if s.cores.any fun kc => kc.2.saved.any fun v => v.groups.any fun kg => kg.2.uid == m.srcUid then
      { s with lateSent := tset 0 s.lateSent m.srcUid (tget 0 s.lateSent m.srcUid + 1) }
    else s

/-! ### Handlers and the trap pair (R164 to R167) -/

/-- A split frozen by a trap (R164). -/
def Split.freeze (p : Split) : Split :=
  if p.wait = 5 then { p with pwait := p.dwait, dwait := 4 } else { p with pwait := p.wait, wait := 4 }

/-- A frozen split returned to the state it had (R167). -/
def Split.thaw (p : Split) : Split :=
  if p.wait = 4 then { p with wait := p.pwait, pwait := 0 }
  else if p.wait = 5 ∧ p.dwait = 4 then { p with dwait := p.pwait, pwait := 0 }
  else p

/-- Whether a release of the group is in progress (R166). -/
def Group.releasing (g : Group) : Bool := g.j.any fun kj => decide (kj.2.state = 2)

/-- The handler starts: the trap registers are set, the rejoin registers move to the shadow, and the
trap split stands in entry 62 at the trap entry (R164, R166, R222). -/
def State.startHandler (s : State) (c g : Nat) (t : PendTrap) (entry : DWord) : State :=
  let s1 := s.unhitch c g 2
  (s1.modGroup c g fun y =>
    let f := ((y.splits.find? fun p => decide (p.id = t.split) && !p.handler).getD (y.splits.headD {}))
    { y with
      j := []
      splits := y.splits ++ [{ f with place := 62, wait := 0, wj := 0, pwait := 0, dwait := 0,
                                      prio := true, pc := entry, handler := true, await := .none,
                                      waitI := none, idle := 0, due := false, grace := 0,
                                      yielded := none, readyAt := s.now + 1, age := BitVec.ofNat 32 (s.cycle c) }]
      q := { y.q with loads := y.q.loads.map fun o => if o.split = f.id ∧ o.handler = false then { o with both := true } else o }
      trap := { y.trap with cause := t.cause, pc := t.pc, info := t.info, active := true,
                            split := f.id, resume := some t.resume, pending := none,
                            jshadow := y.j } }).modCore c fun x => { x with trapOwner := some g }

/-- Every live split of the group frozen (R164). -/
def State.freezeAll (s : State) (c g : Nat) : State :=
  (s.modGroup c g fun y => { y with splits := y.splits.map Split.freeze }).journalPads c g

/-- The trap pair is free: the pending trap of the lowest group slot that waits for it is taken
(R164). -/
def State.nextTrap (s : State) (c : Nat) : State :=
  if (s.core c).trapOwner ≠ none then s
  else
    match (s.core c).groups.find? fun kg =>
        kg.2.trap.pending.isSome && !kg.2.releasing && !kg.2.trap.active &&
          !((s.block? c kg.2.block).any fun k => k.rolling.isSome) with
    | none => s
    | some (g, y) =>
      match y.trap.pending, (s.block? c y.block).bind fun k =>
          k.trapEntry.bind fun i => s.handler? k.launch i with
      | some t, some h => s.startHandler c g t h.entry
      | _, _ => s

/-! ### The end of groups and blocks (R139, R199, R204, R247) -/

/-- Whether a SCOPE 5 entry of a list covers the unit of a replica (R305). -/
def Replica.covered (r : Replica) (l : List GSeal) : Bool :=
  l.any fun e => decide (e.scope = 5 ∧ e.vf = r.vf ∧ e.asid = r.asid ∧ e.addr ≤ r.va ∧
    r.va + r.unit ≤ e.addr + e.len)

/-- Replicas of a die's memory that no SCOPE 5 entry covers discarded (R305). -/
def Die.pruneReplicas (d : Die) : Die := { d with replicas := d.replicas.filter fun r => r.covered d.gseals }

/-- Whether a command still waits for the answer to a request. -/
def State.awaited (s : State) (id : Nat) : Bool :=
  s.cores.any fun kc => kc.2.cmds.any fun m => m.pend.any fun p => p.1 == id

/-- Whether a copy that the seal entries `l` do not cover is serving a read (R305). -/
def State.serving (s : State) (d : Nat) (l : List GSeal) : Bool :=
  (s.die d).replicas.any fun r => !r.covered l && r.reads.any s.awaited

/-- Seal entries of ended blocks removed with the copies that they alone cover, once no such copy serves a
read (R305). -/
def State.sweepSeals (s : State) (d : Nat) : State :=
  let left := (s.die d).gseals.filter fun e => !e.ended
  if left.length = (s.die d).gseals.length ∨ s.serving d left then s
  else s.modDie d fun x => Die.pruneReplicas { x with gseals := left }

/-- The channels of a block freed, each queued message discarded with a NACK of kind 3 (R204). -/
def State.freeChans (s : State) (c b : Nat) : State :=
  let mine := (s.core c).chans.filter fun kc => decide (kc.2.block = b ∧ kc.2.state ≠ 0)
  mine.foldl (fun t kc =>
    (((kc.2.msgs ++ kc.2.backing).foldl (fun u m => u.nackTo c m 3) t)).modCore c fun x =>
      { x with chans := tmod x.chans kc.1 fun h => { gen := h.gen } }) s

/-- Whether a buffer entry of core `home` is one of the block number `uid` in slot `b` of core `c`: it is home of
the buffer, holds it, or has its handle in a queue (R244, R247). -/
def Buf.ofBlock (e : Buf) (home c b uid : Nat) : Bool :=
  if e.state = 2 ∧ e.buid = uid then true
  else
    e.state ≠ 0 && decide (clusterOf home = clusterOf c) && ((decide (home = c) && decide (e.home = b)) ||
      (decide (e.state = 1 ∧ e.hcore = coreNo c ∧ e.hblk = b)))

/-- Buffers that a block holds or queues, or is home of, freed (R247, R250). -/
def State.freeHandles (s : State) (c b uid : Nat) : State :=
  { s with cores := s.cores.map fun (kc : Nat × Core) => (kc.1, { kc.2 with bufs := kc.2.bufs.map fun kb =>
      if (kb.2.ofBlock kc.1 c b uid) = true then (kb.1, kb.2.freed) else kb }) }

/-- Global seal entries of a block removed from every die (R305). -/
def State.unsealBlock (s : State) (buid : Nat) : State :=
  (rangeFrom 0 4).foldl (fun t d =>
    if (t.die d).gseals.any fun e => decide (e.blockUid = buid) then
      (t.modDie d fun x => { x with gseals := x.gseals.map fun e =>
        if e.blockUid = buid then { e with ended := true } else e }).sweepSeals d else t) s

/-- What a block gives up when its last group ends: channels, buffers, seal entries and parked matrix
entries (R185, R204, R247, R271, R305). -/
def State.blockOver (s : State) (c b : Nat) : State :=
  match s.block? c b with
  | none => s
  | some k =>
    let s1 := (s.freeChans c b).freeHandles c b k.uid
    let s2 := s1.dropEntries (clusterOf c) fun e => decide (e.core = c ∧ e.buid = k.uid ∧ 2 ≤ e.state)
    (s2.unsealBlock k.uid).modBlock c b fun k => { k with seals := [] }

/-- The place of an ended block freed once its groups are off the core (R171, R199). -/
def State.freeBlock (s : State) (c b : Nat) : State :=
  (s.blockOver c b).modCore c fun x => { x with blocks := tdel x.blocks b }

/-- Whether an ended group keeps its resources: commands, queued stores or messages (R199). -/
def Core.groupBusy (x : Core) (g : Nat) (y : Group) : Bool :=
  (!y.q.stores.isEmpty) || (!y.q.out.isEmpty) ||
    x.cmds.any fun m => decide (m.slot = g ∧ m.uid = y.uid)

/-- Task entries that only the group could join, freed on every core when it has ended (R232). -/
def State.sweepTasks (s : State) (uid : Nat) : State :=
  { s with cores := s.cores.map fun (kc : Nat × Core) => (kc.1, { kc.2 with tasks := kc.2.tasks.map fun kt =>
      if kt.2.spawner = uid ∧ 5 ≤ kt.2.state then (kt.1, kt.2.freed) else kt }) }

/-- The trap pair given up by a group that is gone (R164, R199). -/
def Core.dropTrapPair (x : Core) (g : Nat) : Core :=
  if x.trapOwner = some g then { x with trapOwner := none } else x

/-- An ended group off its core: its registers and entries are free; a rollback of the interval that it
began in could still bring it back (R199, R219). -/
def State.takeOff (s : State) (c g : Nat) (y : Group) : State :=
  let s1 := s.modBlock c y.block fun k =>
    if k.grecs.any fun kr => decide (kr.2.uid = y.uid) then { k with gone := tput k.gone g y } else k
  s1.modCore c fun x => { (x.dropTrapPair g) with groups := tdel x.groups g, emptyAt := s.now }

/-- What follows when a group is off its core: the task entries that it alone could join are freed, and
its block ends with its last group (R199, R232). -/
def State.groupGone (s : State) (c : Nat) (y : Group) : State :=
  let s1 := s.sweepTasks y.uid
  if (s1.core c).groups.any fun h => decide (h.2.block = y.block) then s1
  else
    match s1.block? c y.block with
    | none => s1
    | some k => (s1.freeBlock c y.block).taskEnded c y.uid k

/-- The resources of ended groups freed, and of a block whose groups are all gone; the entries that they
leave are taken, and the trap pair serves the next trap (R146, R164, R199). -/
def State.reap (s : State) (c : Nat) : State :=
  let x := s.core c
  let gone := x.groups.filter fun kg => kg.2.ended && !x.groupBusy kg.1 kg.2
  if gone.isEmpty then s
  else
    ((((gone.foldl (fun t kg => (t.takeOff c kg.1 kg.2).groupGone c kg.2) s).moveIn c 62).nextTrap
      c)).releaseTasks

/-- A group ends: its lanes are gone, it leaves its convoy and its held matrix entries are dropped; its
entries and registers stay until its commands have completed. With its last group the block ends (R139,
R199, R270, R299). -/
def State.endGroup (s : State) (c g : Nat) : State :=
  match s.group? c g with
  | none => s
  | some x =>
    let s1 := s.leaveConvoy c g
    let s2 := s1.dropEntries (clusterOf c) fun e => decide (e.core = c ∧ e.uid = x.uid ∧ e.state = 2)
    let s3 := s2.modGroup c g fun y =>
      { y with splits := [], kept := x.places, ended := true, resv := [],
               trap := { y.trap with active := false, pending := none, matrix := [] } }
    let gone := !((s3.core c).groups.any fun h => decide (h.2.block = x.block) && !h.2.ended)
    let s4 := s3.modBlock c x.block fun k => { k with ended := gone }
    (if gone then s4.blockOver c x.block else s4).reap c

/-- A group ends by a fatal trap: the launch is marked faulted with its report, and its task is to fail
once it has ended (R225, R232). -/
def State.fatal (s : State) (c g cause : Nat) (pc : DWord) (info : Word) : State :=
  match s.group? c g with
  | none => s
  | some x =>
    match s.block? c x.block with
    | none => s.endGroup c g
    | some k =>
      let s1 := s.fault k.launch
        { cause := cause, pc := pc, info := info, gid := x.gid, blockId := k.blockId, gang := k.gang,
          core := c, cyc := s.cycle c, at_ := s.now }
      (s1.modBlock c x.block fun k => { k with taskFail := some cause }).endGroup c g

/-! ### Intervals and rollback (R215 to R221) -/

/-- The group record of a group (R215). Of several splits, as a restore can find them, or of a running handler it
holds the first alone (DESIGN CHOICE, log entry 83). -/
def Group.record (g : Group) : GRec :=
  { uid := g.uid, s := g.regs.s, split := g.splits.headD {}, k := g.regs.k, j := g.j, cvm := g.cvm, cvtmo := g.cv.tmo }

/-- The urgency ranks of a block's groups taken anew: lower PROG, then earlier start, then lower
GROUPID (R212). -/
def State.rankBlock (s : State) (c b : Nat) : State :=
  let gs := (s.core c).groups.filter fun kg => decide (kg.2.block = b)
  let before (x y : Group) : Bool :=
    decide (x.prog.toNat < y.prog.toNat) || (decide (x.prog = y.prog) &&
      (decide (x.uid < y.uid) || (decide (x.uid = y.uid) && decide (x.gid < y.gid))))
  s.modCore c fun x => { x with groups := x.groups.map fun kg =>
    if kg.2.block = b then
      (kg.1, { kg.2 with rank := (gs.filter fun h => before h.2 kg.2).length })
    else kg }

/-- A rollback interval opens: records are freed and group records written (R215, R218). -/
def State.openInterval (s : State) (c b : Nat) : State :=
  let live := (s.core c).groups.filter fun kg => decide (kg.2.block = b) && !kg.2.ended
  let s1 := s.modBlock c b fun k =>
    { k with jrecs := [], grecs := [], gone := [], jbad := false, exposed := false, jfull := false, dbl := false,
             rolling := none, interval := k.interval + 1 }
  if s1.journalUsed c + 1024 * live.length ≤ 262144 then
    s1.modBlock c b fun k => { k with grecs := live.map fun kg => (kg.1, kg.2.record) }
  else s1.modBlock c b fun k => { k with jfull := true }

/-- ROLLOK of a block (R218). -/
def Block.rollok (k : Block) : Word :=
  BitVec.ofNat 32 ((!k.exposed && !k.jfull).toNat + 2 * k.jfull.toNat + 4 * k.exposed.toNat)

/-- One journal record written back (R219). -/
def State.undo (s : State) (c b : Nat) : JRec → State
  | .vreg _ uid reg old => s.modCore c fun x => { x with groups := x.groups.map fun kg =>
      if kg.2.uid = uid then
        (kg.1, { kg.2 with regs := { kg.2.regs with
          v := old.foldl (fun t kv => tset 0 t kv.1 kv.2)
            (kg.2.regs.v.filter fun kv => !decide (96 * reg ≤ kv.1 ∧ kv.1 < 96 * reg + 96)) } })
      else kg }
  | .line home line old p n => s.modCore home fun x =>
      { x with
        spad := old.foldl (fun t kv => tset 0 t kv.1 kv.2)
          (x.spad.filter fun kv => !decide (32 * line ≤ kv.1 ∧ kv.1 < 32 * line + 32))
        poison := tset false x.poison line p
        nonres := tset false x.nonres line n }
  | .sealing _ _ _ old => s.modBlock c b fun k => { k with seals := old }

/-- The commands a block accepted in its current interval stopped, completed with CANCELLED (R219). -/
def State.cancelCmds (s : State) (c b : Nat) (which : Cmd → Bool) : State :=
  ((s.core c).cmds.filter fun m => decide (m.block = b) && which m).foldl
    (fun t m => t.finishCmd c m bsCANCELLED) s

/-- The writes and atomics in flight of a block's interval stopped: none of them performs (R219). -/
def State.stopFly (s : State) (c b : Nat) (k : Block) : State :=
  { s with fly := s.fly.map fun f =>
      if f.core = c ∧ f.block = b ∧ f.buid = k.uid ∧ f.interval = k.interval then { f with off := true } else f }

/-- The requests to owner dies that a block made in its interval called off: none of them takes effect
(R217, R219). -/
def State.stopAsks (s : State) (k : Block) : State :=
  let keep (a : Ask) : Bool := !decide (a.blockUid = k.uid ∧ a.interval = k.interval)
  (rangeFrom 0 4).foldl (fun t d => t.modDie d fun x =>
    { x with joins := x.joins.filter keep, sealReqs := x.sealReqs.filter keep
             unsealReqs := x.unsealReqs.filter keep })
    { s with cores := s.cores.map fun (kc : Nat × Core) =>
        (kc.1, { kc.2 with asks := kc.2.asks.filter fun a => keep a.1 }) }

/-- The pending trap of a group given up; one that the matrix engine posted is posted again, since its entry is
still held (R219, R233, R270). -/
def GTrap.unpend (t : GTrap) : GTrap :=
  { t with pending := none, matrix := (t.pending.filter (·.posted)).toList ++ t.matrix }

/-- A group whose stores and loads not yet performed are discarded, with the messages and receives of an
interval: S and R no longer count those (R200, R219, log entry 78). The trap that it was in, or that it waited
to take, is abandoned with its handler splits and its shadow, and no split waits for an owner die any more. -/
def Group.dropInterval (g : Group) (interval : Nat) : Group :=
  let out := g.q.out.filter fun o => decide (o.interval ≠ interval)
  let posted := g.q.posted.filter fun p => decide (p.interval ≠ interval)
  { g with splits := (g.splits.filter fun p => !p.handler).map fun p => { p with await := .none, waitI := none }
           trap := { g.trap.unpend with active := false, resume := none, jshadow := [] }
           q := { g.q with stores := [], stOut := g.q.stIn, loads := [], ldOut := g.q.ldIn, out := out, posted := posted }
           cmds := { g.cmds with s := g.cmds.s - (g.q.out.length - out.length)
                                 r := g.cmds.r - (g.q.posted.length - posted.length) } }

/-- What a block began in its interval stopped, as one step with the finding of the error (R219, steps 1
and 2). -/
def State.stopInterval (s : State) (c b : Nat) (k : Block) : State :=
  let s1 := (((s.cancelCmds c b fun m => decide (m.interval = k.interval)).stopFly c b k).stopAsks k)
  let mine := ((s.core c).groups.filter fun kg => decide (kg.2.block = b)).map (·.1)
  s1.modCore c fun x =>
    { x with
      groups := x.groups.map fun kg => if kg.2.block = b then (kg.1, kg.2.dropInterval k.interval) else kg
      trapOwner := x.trapOwner.filter fun g => !mine.contains g }

/-- A group that ended and left the core in the interval brought back, without splits, to the slot it left
or the lowest free one; none when the core has no room left for it (R219, R221). -/
def State.bringBack (s : State) (c : Nat) (kg : Nat × Group) : Option State :=
  let x := s.core c
  let slot := if (tfind? x.groups kg.1).isNone then some kg.1
    else leastFrom (fun n => (tfind? x.groups n).isNone) 0 16
  match slot with
  | none => none
  | some n =>
    if x.groups.foldl (fun m h => m + h.2.foot) kg.2.foot ≤ 768 then
      some (s.modCore c fun x => { x with groups := tput x.groups n kg.2 })
    else none

/-- A group taken back to its group record: one ready split, placed as R144 gives; none when no entry is
free (R219). -/
def State.restoreGroup (s : State) (c padN : Nat) (r : GRec) : Option State :=
  match (s.core c).groups.find? fun kg => decide (kg.2.uid = r.uid) with
  | none => none
  | some (slot, y) =>
    ((s.core c).newPlace y.block padN false).map fun place =>
      (s.modGroup c slot fun g =>
        let h := { g with
          regs := { g.regs with s := r.s, k := r.k }
          j := r.j, cvm := r.cvm, cv := { g.cv with tmo := r.cvtmo }
          splits := [{ r.split with place := place, wait := 0, wj := 0, pwait := 0, dwait := 0,
                                    await := .none, waitI := none, idle := 0, due := false, grace := 0,
                                    readyAt := s.now + 1, age := BitVec.ofNat 32 (s.cycle c) }]
          trap := { g.trap.unpend with active := false, jshadow := [] }
          ended := false, kept := [], resv := [] }
        ((if 64 ≤ place then h.setFlag statPADSW else h).setFlag statRBACK).orphan).journalPads c slot

/-- Steps 4 to 6 of a rollback: the journal written back, every group of the interval at its record, a new
interval open; none when a group finds no room (R219, R220). -/
def State.rollbackTo (s : State) (c b : Nat) (k : Block) : Option State :=
  let s1 := s.modCore c fun x => { x with groups := x.groups.map fun kg =>
    if kg.2.block = b then (kg.1, { kg.2 with splits := [], kept := [], resv := [] }) else kg }
  let mine := ((s.core c).groups.filter fun kg => decide (kg.2.block = b)).map (·.1)
  let s2 := s1.modCore c fun x => { x with trapOwner := x.trapOwner.filter fun g => !mine.contains g }
  (k.gone.foldl (fun t kg => t.bind fun u => u.bringBack c (kg.1, { kg.2 with kept := [] })) (some s2)).bind fun s3 =>
    let s4 := k.jrecs.foldl (fun t r => t.undo c b r) s3
    (k.grecs.foldl (fun t kr => t.bind fun u => u.restoreGroup c k.padN kr.2) (some s4)).map fun s5 =>
      let all := ((s5.core c).groups.filter fun kg => decide (kg.2.block = b)).map (·.1)
      let s6 := all.foldl (fun t g => t.unhitch c g 4) s5
      ((s6.modBlock c b fun k => { k with ended := false }).openInterval c b)

/-- The pc of the first split of a block's lowest group, which a report of its failure names. -/
def State.blockPc (s : State) (c b : Nat) : DWord :=
  match ((s.core c).groups.filter fun kg => decide (kg.2.block = b) && !kg.2.ended).head? with
  | none => 0
  | some kg => (kg.2.splits.headD {}).pc

/-- A block fails: an uncommitted task is discarded, to be queued again once its started commands have
completed and its resources are free, its matrix entries dropped; any other block's groups end by a fatal trap
with that cause (R221, R233, R271). -/
def State.failBlock (s : State) (c b cause : Nat) (pc : DWord) (info : Word) : State :=
  match s.block? c b with
  | none => s
  | some k =>
    let mine := ((s.core c).groups.filter fun kg => decide (kg.2.block = b) && !kg.2.ended).map (·.1)
    if k.task ≠ none ∧ !k.committed then
      let s1 := s.cancelCmds c b fun m => decide (m.startedAt = none)
      let s0 := (s1.parkEntries c k).dropEntries (clusterOf c) fun e => decide (e.core = c ∧ e.buid = k.uid)
      let s2 := s0.modBlock c b fun k => { k with requeue := true, rolling := none }
      mine.foldl (fun t g => t.endGroup c g) s2
    else
      mine.foldl (fun t g => t.fatal c g cause pc info) (s.modBlock c b fun k => { k with rolling := none })

/-- A block rolled back to the start of its interval, or failed when its journal holds an error or a group
finds no room (R219 to R221).
`dbl` marks a DOUBLE; a mark of the interval stays (R226, log entry 18). -/
def State.rollback (s : State) (c b : Nat) (dbl : Bool) : State :=
  match s.block? c b with
  | none => s
  | some k =>
    match if k.jbad then none else (s.stopInterval c b k).rollbackTo c b k with
    | some t => (((t.modBlock c b fun k' => { k' with dbl := dbl || k.dbl }).moveIn c 62).nextTrap c)
    | none => s.failBlock c b 0x40 (s.blockPc c b) 0

/-- Whether a rollback of a block waits for a started command of an earlier interval (R219, step 3). -/
def State.rollbackWaits (s : State) (c b : Nat) : Bool :=
  match s.block? c b with
  | none => false
  | some k => (s.core c).cmds.any fun m =>
      decide (m.block = b ∧ m.buid = k.uid ∧ m.interval ≠ k.interval) && m.startedAt.isSome

/-- A rollback begun: what the interval began is stopped, and the block rolls back at once or stands until
its earlier commands have completed; `dbl` marks a DOUBLE (R219, R226). -/
def State.beginRollback (s : State) (c b : Nat) (dbl : Bool) : State :=
  match s.block? c b with
  | none => s
  | some k =>
    let s1 := s.stopInterval c b k
    if s1.rollbackWaits c b then (s1.modBlock c b fun k => { k with rolling := some dbl }).nextTrap c
    else s1.rollback c b dbl

/-! ### Taking a trap and returning from one (R164 to R167, R222 to R226) -/

/-- A trap of a group outside a handler is taken: fatal without a trap entry; pending while a release
is in progress or another group uses the trap pair; else the handler starts (R164, R166, R225). -/
def State.takeTrap (s : State) (c g : Nat) (t : PendTrap) : State :=
  match s.group? c g with
  | none => s
  | some y =>
    match s.block? c y.block with
    | none => s
    | some k =>
      if y.releasing then s.modGroup c g fun y => { y with trap := { y.trap with pending := some t } }
      else
        match (k.trapEntry.bind fun i => s.handler? k.launch i) with
        | none => s.fatal c g t.cause t.pc t.info
        | some h =>
          if (s.core c).trapOwner = none then
            (s.freezeAll c g).startHandler c g t h.entry
          else
            (s.freezeAll c g).modGroup c g fun y =>
              { y with trap := { y.trap with pending := some t } }

/-- A DOUBLE kills the group: the block rolls back once in an interval that can be rolled back, else
it fails (R226). -/
def State.double (s : State) (c g : Nat) (pc : DWord) (info : Word) : State :=
  match s.group? c g with
  | none => s
  | some y =>
    match s.block? c y.block with
    | none => s
    | some k =>
      if k.rollok.getLsbD 0 && !k.dbl then
        s.beginRollback c y.block true
      else s.failBlock c y.block cDOUBLE pc info

/-- The instruction of the issuing split traps: it has no effect, and the trap is taken, or DOUBLE
when the split is a handler's (R166, R224). `skip` says that TRET resumes after the instruction. -/
def State.trapAt (s : State) (cx : Ctx) (cause : Nat) (info : Word) (resume : DWord) : Out :=
  if cx.sp.handler then
    .next { s.double cx.core cx.slot cx.sp.pc (BitVec.ofNat 32 cause) with mark := .trapped }
  else
    .next { (s.modSplit cx fun p =>
        { p with wait := 0, await := .none, waitI := none }).takeTrap cx.core cx.slot
      { split := cx.sp.id, cause := cause, info := info, pc := cx.sp.pc, resume := resume } with
      mark := .trapped }

/-- A precise trap: TRET resumes at the trapping instruction itself (R224). -/
def State.trap (s : State) (cx : Ctx) (cause : Nat) (info : Word) : Out :=
  s.trapAt cx cause info cx.sp.pc

/-- The return from a trap: handler splits end, the frozen splits and the rejoin registers return,
TRAPCAUSE is 0, and the faulting split resumes (R166, R167, R222, R224). -/
def State.trapReturn (s : State) (c g : Nat) : State :=
  let s1 := s.modGroup c g fun y => Group.orphan
    { y with
      j := y.trap.jshadow
      splits := (y.splits.filter fun p => !p.handler).map fun p =>
        let q := { p.thaw with readyAt := s.now + 1 }
        if q.id = y.trap.split then
          { q with pc := y.trap.resume.getD q.pc } else q
      trap := { y.trap with active := false, cause := 0, resume := none, jshadow := [] } }
  (((s1.journalPads c g).modCore c fun x => { x with trapOwner := none }).nextTrap c)

end Sys2Proof.Machine
end

