-- ==== Sys2Proof/Machine/Operands.lean ====
section
/-!
DEFINITION. The operand forms: operand b of format S (R123), operands a, b and c of format V (R44,
R46), the branch target of format B (R49) and the addresses of format M (R50, R172, R177).
-/
namespace Sys2Proof

open Sys2Proof.Machine

/-- Operand a of a SALU instruction (R123). -/
def FmtS.opA (f : FmtS) (cx : Ctx) : Word := cx.s f.sa.toNat

/-- Operand b of a SALU instruction: the literal, the sign-extended immediate or s[SB] (R123). -/
def FmtS.opB (f : FmtS) (cx : Ctx) : Word :=
  if f.lx = 1 then f.lit.extractLsb' 0 32
  else if f.imm = 1 then f.imm29.signExtend 32
  else cx.s f.sb.toNat

/-- Operand a of a lane instruction in lane `l` (R44). -/
def FmtV.opA (f : FmtV) (cx : Ctx) (l : Nat) : Word := cx.v f.va.toNat l

/-- Operand b: the literal or the scalar broadcast with BSC = 1, else v[VB] of the lane (R44, R46). -/
def FmtV.opB (f : FmtV) (cx : Ctx) (l : Nat) : Word :=
  if f.bsc = 1 then
    (if f.lx = 1 then f.lit.extractLsb' 0 32 else cx.s (f.vb.toNat % 64))
  else cx.v f.vb.toNat l

/-- Operand c: the literal's high half or the scalar broadcast with CSC = 1, else v[VC] of the lane
(R44, R46). -/
def FmtV.opC (f : FmtV) (cx : Ctx) (l : Nat) : Word :=
  if f.csc = 1 then
    (if f.lx = 1 then f.lit.extractLsb' 32 32 else cx.s (f.vc.toNat % 64))
  else cx.v f.vc.toNat l

/-- The target of a branch: the next word plus 8 × OFF24 (R49). -/
def FmtB.target (f : FmtB) (cx : Ctx) : DWord :=
  addr56 ((cx.sp.pc.toNat + 8 + 2 ^ 56 + (8 * f.off24.toInt).toNat) -
    (8 * (-f.off24.toInt)).toNat)

/-- The mask that a branch reads: k[KC], inverted by NEG (R134, R135). -/
def FmtB.mask (f : FmtB) (cx : Ctx) : LaneMask :=
  if f.neg = 1 then ~~~(cx.k f.kc.toNat) else cx.k f.kc.toNat

/-- The sign-extended IMM20 (R50). -/
def FmtM.disp (f : FmtM) : Word := f.imm20.signExtend 32

/-- The effective offset of lane `l`: SCOPE 0 adds s[SBASE], the handle form does not (R172). -/
def FmtM.offset (f : FmtM) (cx : Ctx) (l : Nat) : Word :=
  (if f.scope = 0 then cx.s f.sbase.toNat else 0) +
    (if f.nov = 1 then 0 else cx.v f.voff.toNat l) + f.disp

/-- The offset of a scalar access (R177). -/
def FmtM.offsetU (f : FmtM) (cx : Ctx) : Word :=
  (if f.scope = 3 then 0 else cx.s f.sbase.toNat) + f.disp

/-- Bytes of an access by SZ: 1, 2, 4, 8, 16 (R176). -/
def szBytes (sz : BitVec 3) : Nat := 2 ^ sz.toNat

/-- Registers of an access by SZ (R50). -/
def szWords (sz : BitVec 3) : Nat := if sz.toNat ≤ 2 then 1 else 2 ^ (sz.toNat - 2)

end Sys2Proof
end

