-- ==== Sys2Proof/Machine/Chn.lean ====
section
/-!
DEFINITION. The CHN instructions (major 0x15, R203 to R210).
-/
namespace Sys2Proof.Machine

/-- The core that a destination word names (R205). -/
def destCore (w : Word) : Nat := bits w 13 12 * 64 + bits w 11 8 * 4 + bits w 7 6

/-- A destination word whose reserved fields are 0 (R205). -/
def destOk (w : Word) : Bool := bits w 19 14 == 0 && bits w 5 0 == 0

/-- A message handed to the group's outgoing queue: it leaves when the stores before it have performed
(R210). -/
def State.sendOut (s : State) (cx : Ctx) (m : Msg) : State :=
  s.modG cx fun g =>
    { g with q := { g.q with out := g.q.out ++ [{ stores := g.q.stIn, msg := m, interval := cx.blk.interval }] }
             cmds := { g.cmds with s := g.cmds.s + 1 } }

/-- A message of the issuing group (R205, R309). -/
def msgOf (cx : Ctx) (kind chan : Nat) (dest grid : Word) (payload : List Word) : Msg :=
  { kind, chan, dest, grid, payload, src := cx.core, srcSlot := cx.slot, srcUid := cx.grp.uid
    part := cx.blk.vf }

/-- SEND and SENDV: nothing without a launched lane or a word to send; channel 63 and a malformed
destination trap CHANNEL (R192, R205, R206). -/
def sendWords (f : FmtE) (s : State) (payload : Ctx → List Word) : Out :=
  s.issue fun cx =>
    let d := cx.s f.sb.toNat
    if !cx.anyLaunched then s.advance cx f.lx
    else if f.ch = 63 ∨ !destOk d then s.trap cx cCHANNEL (f.ch.setWidth 32)
    else if payload cx = [] then s.advance cx f.lx
    else (s.sendOut cx (msgOf cx 0 f.ch.toNat d 0 (payload cx))).advance cx f.lx

/-- SEND (R206). -/
def execSend (f : FmtE) (s : State) : Out :=
  sendWords f s fun cx => (rangeFrom f.sa.toNat f.imm16.toNat).map cx.s

/-- SENDV (R206). -/
def execSendv (f : FmtE) (s : State) : Out :=
  sendWords f s fun cx => (lanesOf (cx.participants f.km)).map fun l => cx.v f.sa.toNat l

/-- AMSG (R205, R209). A destination word with a nonzero GEN, which must be 0, traps CHANNEL (DESIGN CHOICE, log
entry 81). -/
def execAmsg (f : FmtE) (s : State) : Out :=
  s.issue fun cx =>
    let d := cx.s f.sb.toNat
    if !cx.anyLaunched then s.advance cx f.lx
    else if bits d 31 20 ≠ 0 ∨ !destOk d then s.trap cx cCHANNEL (f.ch.setWidth 32)
    else
      (s.sendOut cx (msgOf cx 1 f.ch.toNat d (cx.s (f.sb.toNat + 1))
        ((rangeFrom f.sa.toNat f.imm16.toNat).map cx.s))).advance cx f.lx

/-- Whether a block may receive on a channel: the channel is free or its own (R204). -/
def chanOk (x : Core) (block ch : Nat) : Bool :=
  let e := tget {} x.chans ch
  ch == 63 || e.state == 0 || (e.state == 1 && e.block == block)

/-- A free channel bound to the issuing block, its generation incremented (R204). -/
def State.bindChan (s : State) (cx : Ctx) (ch : Nat) : State :=
  s.modCore cx.core fun x =>
    let e := tget {} x.chans ch
    let e' : Chan := { gen := (e.gen + 1) % 4096, block := cx.grp.block, state := 1 }
    if ch ≠ 63 ∧ e.state = 0 then { x with chans := tset {} x.chans ch e' } else x

/-- The receive status word (R206). -/
def recvStatus (gen src count : Nat) : Word :=
  if count = 0 then BitVec.ofNat 32 (gen * 2 ^ 20)
  else BitVec.ofNat 32 (gen * 2 ^ 20 + dieOf src * 2 ^ 18 + (clusterOf src % 16) * 2 ^ 14 +
    coreNo src * 2 ^ 12 + count)

/-- A scalar register written for the split that posted a receive (R83, R206). -/
def Group.give (g : Group) (p : Posted) (n : Nat) (w : Word) : Group :=
  g.setS (if p.gone then 128 else p.split) p.handler n w

/-- The words of a message written to the registers of a receive (R206). -/
def Group.fill (g : Group) (p : Posted) (words : List Word) : Group :=
  if p.isV then
    let ls := lanesOf p.lanes
    let v := (rangeFrom 0 ls.length).foldl
      (fun t i => tset 0 t (96 * p.dst + ls.getD i 0) (words.getD i 0)) g.regs.v
    { g with regs := { g.regs with v } }
  else (rangeFrom 0 16).foldl (fun h i => h.give p (p.dst + i) (words.getD i 0)) g

/-- What a receive of a channel finds: words, sender and generation. -/
structure Found where
  words : List Word
  src : Nat
  gen : Nat

/-- The message that the next receive posted on a channel would take, past `skip` messages (R206,
R208): from the group's error queue for channel 63, whose sender is the core its w1 names, with bit 16 of w0
after a drop. -/
def State.present (s : State) (c g ch skip : Nat) : Option Found :=
  if ch = 63 then
    match s.group? c g with
    | none => none
    | some x => (x.q.errq[skip]?).map fun m =>
        { words := if x.q.errDrop then m.set 0 (m.getD 0 0 ||| 0x10000) else m
          src := destCore (m.getD 1 0), gen := 0 }
  else
    let e := tget {} (s.core c).chans ch
    (e.msgs[skip]?).map fun m => { words := m.payload, src := m.src, gen := e.gen }

/-- A bound channel takes backed messages as it has room (R204). -/
def Chan.refill (e : Chan) : Chan :=
  { e with msgs := (e.msgs ++ e.backing).take 4, backing := (e.msgs ++ e.backing).drop 4 }

/-- Message number `n` of a channel or error queue taken out (R206). -/
def State.takeMsg (s : State) (c g ch n : Nat) : State :=
  if ch = 63 then
    s.modGroup c g fun x => { x with q := { x.q with errq := x.q.errq.eraseIdx n, errDrop := false } }
  else s.modCore c fun x => { x with chans := tmod x.chans ch fun e =>
    { e with msgs := e.msgs.eraseIdx n }.refill }

/-- The receives posted on a channel of a core by groups that have not ended, and by one group on channel
63. -/
def Core.postedOn (x : Core) (slot ch : Nat) : List Posted :=
  x.groups.flatMap fun kg =>
    if kg.2.ended ∨ (ch = 63 ∧ kg.1 ≠ slot) then [] else kg.2.q.posted.filter fun p => decide (p.chan = ch)

/-- A receive posted, to be filled later (R200, R206). A ninth waits at issue. -/
def postRecv (f : FmtE) (s : State) (isV : Bool) : Out :=
  s.issue fun cx =>
    let ch := f.ch.toNat
    if !chanOk (s.core cx.core) cx.grp.block ch then s.trap cx cCHANNEL (BitVec.ofNat 32 ch)
    else if 8 ≤ cx.grp.q.posted.length then s.heldAt
    else
      let (n, s1) := s.freshUid
      let p : Posted := { num := n, interval := cx.blk.interval, chan := ch, isV, dst := f.sd.toNat, sa := f.sa.toNat
                          lanes := cx.participants f.km, split := cx.sp.id, handler := cx.sp.handler }
      ((s1.bindChan cx ch).modG cx fun g =>
        { g with q := { g.q with posted := g.q.posted ++ [p] }
                 cmds := { g.cmds with r := g.cmds.r + 1 } }).advance cx f.lx

/-- RECV (R206). -/
def execRecv (f : FmtE) (s : State) : Out := postRecv f s false

/-- RECVV (R206). -/
def execRecvv (f : FmtE) (s : State) : Out := postRecv f s true

/-- RECVT (R206): takes a message that no posted receive is to take, or writes a status of COUNT 0. -/
def execRecvt (f : FmtE) (s : State) : Out :=
  s.issue fun cx =>
    let ch := f.ch.toNat
    if !chanOk (s.core cx.core) cx.grp.block ch then s.trap cx cCHANNEL (BitVec.ofNat 32 ch)
    else
      let s1 := s.bindChan cx ch
      let skip := ((s.core cx.core).postedOn cx.slot ch).length
      match s1.present cx.core cx.slot ch skip with
      | none =>
        let gen := if ch = 63 then 0 else (tget {} (s1.core cx.core).chans ch).gen
        (s1.setS cx f.sa.toNat (recvStatus gen 0 0)).advance cx f.lx
      | some m =>
        let p : Posted := { num := 0, chan := ch, isV := false, dst := f.sd.toNat, sa := f.sa.toNat
                            lanes := 0, split := cx.sp.id, handler := cx.sp.handler }
        ((((s1.takeMsg cx.core cx.slot ch skip).modG cx fun g => g.fill p m.words).setS cx f.sa.toNat
          (recvStatus m.gen m.src m.words.length)).expose cx.core cx.grp.block).advance cx f.lx

end Sys2Proof.Machine
end

