-- ==== Sys2Proof/Machine/Spm.lean ====
section
/-!
DEFINITION. The scratchpad loads and stores (major 0x10, R172 to R180, R186, R187) and STORE_PERFORM.
-/
namespace Sys2Proof.Machine

/-- Where an access goes (R172): the core whose scratchpad it reaches, the base and length of the
space there, the handle, and whether the handle is valid for the block. -/
structure Loc where
  home : Nat
  base : Nat
  limit : Nat
  handle : Option Word
  valid : Bool
deriving DecidableEq, Repr

/-- The space of a SCOPE: the block's own allocation or the buffer of a handle (R172). -/
def locOf (scope : BitVec 4) (h : Word) (cx : Ctx) (s : State) : Loc :=
  if scope = 3 then
    let e := s.handleBuf cx.core h
    { home := handleHome cx.core h, base := e.base, limit := 32 * e.len32, handle := some h
      valid := decide (s.handleReason cx.core cx.grp.block h = 0) }
  else
    { home := cx.core, base := cx.blk.base, limit := cx.blk.usable, handle := none, valid := true }

/-- The kinds of access that the checks of R173 tell apart. -/
structure Access where
  loads : Bool
  stores : Bool
deriving DecidableEq, Repr

/-- The first check that fails for an access of `b` bytes at an offset (R173). -/
def Loc.check (p : Loc) (s : State) (x : Access) (off : Word) (b : Nat) : Option Nat :=
  let o := off.toNat
  if o % b ≠ 0 then some cALIGN
  else if !p.valid then some cHANDLE
  else if p.limit < o + b then some cSPADBOUND
  else if x.stores && s.spadSealed p.home (p.base + o) b then some cSEALED
  else if x.loads && s.spadPoisoned p.home (p.base + o) b then some cPOISON
  else none

/-- TRAPINFO of an access trap: the lane or 127, and bit 9 for the handle form (R173). -/
def Loc.info (p : Loc) (lane : Nat) : Word :=
  BitVec.ofNat 32 (lane + if p.handle.isSome then 512 else 0)

/-- The lowest launched lane among `lanes` that fails a check, with its cause (R173). -/
def firstFail (cx : Ctx) (lanes : List Nat) (chk : Nat → Option Nat) : Option (Nat × Nat) :=
  (lanes.filter fun l => decide (l < cx.grp.nlanes)).findSome? fun l => (chk l).map fun c => (l, c)

/-- The `b` low bytes of the registers from v[r] of a lane, low register first (R176). -/
def Ctx.vbytes (cx : Ctx) (r l b : Nat) : List Byte :=
  ((rangeFrom 0 4).flatMap fun w => natLe (cx.v (r + w) l).toNat 4).take b

/-- The same of scalar registers (R177). -/
def Ctx.sbytes (cx : Ctx) (r b : Nat) : List Byte :=
  ((rangeFrom 0 4).flatMap fun w => natLe (cx.s (r + w)).toNat 4).take b

/-- Word `w` of loaded bytes, zero-extended (R176). -/
def wordAt (l : List Byte) (w : Nat) : Word := BitVec.ofNat 32 (leNat ((l.drop (4 * w)).take 4))

/-- `n` vector registers from v[r] written in the lanes of `m` with the words of `f` (R176). -/
def State.setVs (s : State) (cx : Ctx) (r n : Nat) (m : LaneMask) (f : Nat → List Byte) : State :=
  (rangeFrom 0 n).foldl (fun t w => t.setV cx (r + w) m fun l => wordAt (f l) w) s

/-- `n` scalar registers from s[r] written with the words of some bytes (R177). -/
def State.setSs (s : State) (cx : Ctx) (r n : Nat) (l : List Byte) : State :=
  (rangeFrom 0 n).foldl (fun t w => t.setS cx (r + w) (wordAt l w)) s

/-- A store instruction entered in the group's store queue (R186). -/
def State.enqueue (s : State) (cx : Ctx) (p : Loc) (cells : List (Nat × Byte)) : State :=
  s.modG cx fun g =>
    { g with q := { g.q with
        stores := g.q.stores ++ [{ home := p.home, handle := p.handle, cells := cells }]
        stIn := g.q.stIn + 1 } }

/-- The bytes that lane `l` of a load reads; a helper lane whose check fails reads zeros (R173). -/
def laneLoad (f : FmtM) (cx : Ctx) (s : State) (p : Loc) (l : Nat) : List Byte :=
  let b := szBytes f.sz
  match p.check s ⟨true, false⟩ (f.offset cx l) b with
  | none => cx.load s p.home (p.base + (f.offset cx l).toNat) b
  | some _ => List.replicate b 0

/-- The load of an instruction, to perform 6 cycles after its issue (R187). -/
def loadOf (f : FmtM) (cx : Ctx) (s : State) (p : Loc) (uniform : Bool) (lanes : List (Nat × Nat)) (resv : Tbl Nat) :
    LoadOp :=
  { at_ := s.now, stores := cx.grp.q.stIn, split := cx.sp.id, handler := cx.sp.handler, uniform
    dst := if uniform then f.vds.toNat % 64 else f.vds.toNat, size := szBytes f.sz, home := p.home, lanes, resv }

/-- A load entered among those of its group. -/
def State.noteLoad (s : State) (cx : Ctx) (o : LoadOp) : State :=
  s.modG cx fun g => { g with q := { g.q with loads := g.q.loads ++ [o], ldIn := g.q.ldIn + 1 } }

/-- A lane load: the checks of R173, then the destination registers of every lane that takes part, as they are
until it performs; `resv` gives what the lanes are to reserve. -/
def laneLoads (f : FmtM) (s : State) (resv : Ctx → Tbl Nat) : Out :=
  s.issue fun cx =>
    let p := locOf f.scope (cx.s f.sbase.toNat) cx s
    let m := cx.active f.km
    match firstFail cx (lanesOf m) fun l => p.check s ⟨true, false⟩ (f.offset cx l) (szBytes f.sz) with
    | some (l, c) => s.trap cx c (p.info l)
    | none =>
      let read := (lanesOf m).filter fun l => (p.check s ⟨true, false⟩ (f.offset cx l) (szBytes f.sz)).isNone
      ((s.setVs cx f.vds.toNat (szWords f.sz) m fun l => laneLoad f cx s p l).noteLoad cx (loadOf f cx s p false
        (read.map fun l => (l, p.base + (f.offset cx l).toNat)) (resv cx))).advance cx f.lx

/-- LDS (R176). -/
def execLds (f : FmtM) (s : State) : Out := laneLoads f s fun _ => []

/-- STS (R176): one entry of the store queue with the lanes' bytes in increasing lane order. -/
def execSts (f : FmtM) (s : State) : Out :=
  s.issue fun cx =>
    if 16 ≤ cx.grp.q.stores.length then s.heldAt
    else
      let p := locOf f.scope (cx.s f.sbase.toNat) cx s
      let ls := lanesOf (cx.participants f.km)
      match firstFail cx ls fun l => p.check s ⟨false, true⟩ (f.offset cx l) (szBytes f.sz) with
      | some (l, c) => s.trap cx c (p.info l)
      | none =>
        (s.enqueue cx p (ls.flatMap fun l =>
          cellsAt (p.base + (f.offset cx l).toNat) (cx.vbytes f.vds.toNat l (szBytes f.sz)))).advance
          cx f.lx

/-- LDU (R177). -/
def execLdu (f : FmtM) (s : State) : Out :=
  s.issue fun cx =>
    let p := locOf f.scope (cx.s f.sbase.toNat) cx s
    match p.check s ⟨true, false⟩ (f.offsetU cx) (szBytes f.sz) with
    | some c => s.trap cx c (p.info 127)
    | none =>
      let a := p.base + (f.offsetU cx).toNat
      ((s.setSs cx (f.vds.toNat % 64) (szWords f.sz) (cx.load s p.home a (szBytes f.sz))).noteLoad cx
        (loadOf f cx s p true [(0, a)] [])).advance cx f.lx

/-- STU (R177). -/
def execStu (f : FmtM) (s : State) : Out :=
  s.issue fun cx =>
    if 16 ≤ cx.grp.q.stores.length then s.heldAt
    else
      let p := locOf f.scope (cx.s f.sbase.toNat) cx s
      match p.check s ⟨false, true⟩ (f.offsetU cx) (szBytes f.sz) with
      | some c => s.trap cx c (p.info 127)
      | none =>
        (s.enqueue cx p (cellsAt (p.base + (f.offsetU cx).toNat)
          (cx.sbytes (f.vds.toNat % 64) (szBytes f.sz)))).advance cx f.lx

/-- The granule that an address lies in (R178). -/
def granule (a : Nat) : Nat := a / 8 * 8

/-- LDRES (R178): a load, and each participant reserves its granule as it performs. -/
def execLdres (f : FmtM) (s : State) : Out :=
  laneLoads f s fun cx => (lanesOf (cx.participants f.km)).map fun l =>
    (l, granule (cx.blk.base + (f.offset cx l).toNat))

/-- Whether the stores, or the loads, of a group have still to perform: its STCND, STCMP and atomics wait for
them (R186, R187). -/
def GQueues.busy (q : GQueues) : Bool := !q.stores.isEmpty || !q.loads.isEmpty

/-- What STCND gathers lane by lane: the cells stored, the reservations left and the lanes that
failed. -/
structure StcndAcc where
  cells : List (Nat × Byte)
  resv : Tbl Nat
  failed : List Nat

/-- One lane of STCND (R178). -/
def stcndLane (f : FmtM) (cx : Ctx) (a : StcndAcc) (l : Nat) : StcndAcc :=
  let adr := cx.blk.base + (f.offset cx l).toNat
  if cx.grp.nlanes ≤ l then { a with resv := tdel a.resv l, failed := l :: a.failed }
  else if tfind? a.resv l = some (granule adr) then
    { a with cells := a.cells ++ cellsAt adr (cx.vbytes f.vds.toNat l (szBytes f.sz))
             resv := tdel (a.resv.filter fun r => decide (r.2 ≠ granule adr)) l }
  else { a with resv := tdel a.resv l, failed := l :: a.failed }

/-- STCND (R178): one indivisible step once the group's store queue is empty and its loads have performed. -/
def execStcnd (f : FmtM) (s : State) : Out :=
  s.issue fun cx =>
    if cx.grp.q.busy then s.heldAt
    else
      let p := locOf f.scope (cx.s f.sbase.toNat) cx s
      let m := cx.active f.km
      match firstFail cx (lanesOf m) fun l =>
          p.check s ⟨false, true⟩ (f.offset cx l) (szBytes f.sz) with
      | some (l, c) => s.trap cx c (p.info l)
      | none =>
        let a := (lanesOf m).foldl (stcndLane f cx) ⟨[], cx.grp.resv, []⟩
        (((s.writeSpad (some (cx.core, cx.grp.block)) cx.core a.cells false false).modG cx fun g =>
            { g with resv := a.resv }).setV cx f.vds.toNat m fun l =>
          if a.failed.contains l then 1 else 0).advance cx f.lx

/-- STCMP (R180): the participants' values appended at the pointer word. -/
def execStcmp (f : FmtM) (s : State) : Out :=
  s.issue fun cx =>
    if cx.grp.q.busy then s.heldAt
    else
      let p := locOf f.scope 0 cx s
      let pa := f.offsetU cx
      match p.check s ⟨true, true⟩ pa 4 with
      | some c => s.trap cx c (p.info 127)
      | none =>
        let ptr := leNat (cx.load s cx.core (p.base + pa.toNat) 4)
        let ls := lanesOf (cx.participants f.km)
        let t (l : Nat) : Word := BitVec.ofNat 32 (4 * (ptr + ls.idxOf l))
        match firstFail cx ls fun l => p.check s ⟨false, true⟩ (t l) 4 with
        | some (l, c) => s.trap cx c (p.info l)
        | none =>
          let n := ls.length
          let cells := (ls.flatMap fun l =>
            cellsAt (p.base + (t l).toNat) (natLe (cx.v f.vds.toNat l).toNat 4)) ++
            cellsAt (p.base + pa.toNat) (natLe (ptr + n) 4)
          let s1 := s.writeSpad (some (cx.core, cx.grp.block)) cx.core cells false false
          let s2 := if 2 ^ 32 ≤ ptr + n then s1.setStat cx.core cx.slot statNXOVF else s1
          (s2.setS cx (f.sbase.toNat + 1) (BitVec.ofNat 32 n)).advance cx f.lx

/-- What a load of a group returns from an address: for each byte the latest store issued before it that is
still queued, else the byte last performed (R187). -/
def LoadOp.bytes (o : LoadOp) (g : Group) (spad : Tbl Byte) (a : Nat) : List Byte :=
  let h := { g with q := { g.q with stores := g.q.stores.take (o.stores - g.q.stOut) } }
  (rangeFrom a o.size).map fun x => h.loadByte spad o.home x

/-- A load performs in a group: its registers take what it returns, and its lanes their reservations (R178,
R187). -/
def Group.perform (g : Group) (o : LoadOp) (spad : Tbl Byte) : Group :=
  let words := rangeFrom 0 ((o.size + 3) / 4)
  let h := if o.uniform then
      o.lanes.foldl (fun h la => words.foldl (fun h w =>
        let x := wordAt (o.bytes g spad la.2) w
        let h1 := h.setS o.split o.handler (o.dst + w) x
        if o.both then h1.setS o.split true (o.dst + w) x else h1) h) g
    else
      { g with regs := { g.regs with v := o.lanes.foldl (fun t la =>
          words.foldl (fun t w => tset 0 t (96 * (o.dst + w) + la.1) (wordAt (o.bytes g spad la.2) w)) t) g.regs.v } }
  { h with resv := o.resv.foldl (fun r x => tput r x.1 x.2) h.resv }

/-- The oldest load of a group performs, 6 cycles after its issue (R187). -/
def State.loadPerform (s : State) (c slot : Nat) : State :=
  match s.group? c slot with
  | none => s
  | some g =>
    match g.q.loads with
    | [] => s
    | o :: rest =>
      if o.at_ + 6 ≤ s.now then
        s.modGroup c slot fun g =>
          ({ g with q := { g.q with loads := rest, ldOut := g.q.ldOut + 1 } } : Group).perform o (s.core o.home).spad
      else s

/-- Whether a load of a group is to perform in this cycle. -/
def Group.loadDue (g : Group) (now : Nat) : Bool := match g.q.loads with
  | o :: _ => decide (o.at_ + 6 ≤ now)
  | [] => false

/-- STORE_PERFORM (R186): the oldest entry of a group's store queue performs, after the loads issued before
it (R187). -/
def execStorePerform (core slot : Nat) (s : State) : Out :=
  match s.group? core slot with
  | none => s.noEvent
  | some g =>
    match g.q.stores with
    | [] => s.noEvent
    | o :: rest =>
      if g.q.loads.any fun l => decide (l.stores ≤ g.q.stOut) then s.noEvent else
      let s1 := (s.modGroup core slot fun g =>
        { g with q := { g.q with stores := rest, stOut := g.q.stOut + 1 } }).writeSpad
          (some (core, g.block)) o.home o.cells false false
      .next (s1.reap core)

end Sys2Proof.Machine
end

