-- ==== Sys2Proof/Machine/Splits.lean ====
section
/-!
DEFINITION. The split mechanism: division, rejoin registers and their releases, merges (R140 to
R163).
-/
namespace Sys2Proof.Machine

/-- The splits of a group that run: the handler's while a trap is in progress (R165). -/
def Group.running (g : Group) : List Split := g.splits.filter fun p => p.handler == g.trap.active

/-- One new split of a division placed, or none without room (R142, R144). -/
def State.addSplit (s : State) (cx : Ctx) (lanes : LaneMask) (pc : DWord) : Option State :=
  match s.group? cx.core cx.slot, (s.core cx.core).newPlace cx.grp.block cx.blk.padN cx.sp.handler with
  | some g, some place =>
    some (s.modG cx fun y =>
      { (if 64 ≤ place then y.setFlag statPADSW else y) with
        splits := y.splits ++ [{
          id := g.newId, place := place, prio := false, age := BitVec.ofNat 32 (s.cycle cx.core),
          s56 := cx.sp.s56, s57 := cx.sp.s57, s58 := cx.sp.s58, s59 := cx.sp.s59, fmt := cx.sp.fmt,
          exec := lanes, domain := lanes, pc := pc, handler := cx.sp.handler }] })
  | _, _ => none

/-- Every new split of a division placed, all or none (R144). -/
def State.addSplits (s : State) (cx : Ctx) : List (LaneMask × DWord) → Option State
  | [] => some s
  | (m, pc) :: l =>
    match s.addSplit cx m pc with
    | none => none
    | some t => t.addSplits cx l

/-- A division: the incumbent keeps its entry with lanes `m` at `pc` and the domain lanes of no other
path; the other paths become new splits. Without room it traps SPLITOVF (R135, R136, R144, R149). -/
def State.divide (s : State) (cx : Ctx) (m : LaneMask) (pc : DWord)
    (news : List (LaneMask × DWord)) : Out :=
  let gone := news.foldl (fun a n => a ||| n.1) 0
  let s1 := (s.modG cx fun g => g.clearResv cx.sp.domain).modSplit cx fun p =>
    { p with exec := m, domain := p.domain &&& ~~~gone, prio := true }
  match s1.addSplits cx news with
  | none => s.trap cx cSPLITOVF (BitVec.ofNat 32 news.length)
  | some t => (t.journalPads cx.core cx.slot).goTo cx pc

/-- The WAIT of a split, behind a debugger's hold (R168). -/
def Split.eff (p : Split) : Nat := if p.wait = 5 then p.dwait else p.wait

/-- That WAIT changed. -/
def Split.setEff (p : Split) (w : Nat) : Split :=
  if p.wait = 5 then { p with dwait := w } else { p with wait := w }

/-- A split held by a debugger (R168). -/
def Split.hold (p : Split) : Split := if p.wait = 5 then p else { p with dwait := p.wait, wait := 5 }

/-- A held split let go (R168). -/
def Split.letGo (p : Split) : Split := if p.wait = 5 then { p with wait := p.dwait, dwait := 0 } else p

/-- The waiters of rejoin register `n` (R160). -/
def Group.waiters (g : Group) (n : Nat) : List Split :=
  g.running.filter fun p => decide (p.eff = 1 ∧ p.wj = n)

/-- The lanes that can still arrive at a rejoin register: those of no split with WAIT 1 or 2 (R158). -/
def Group.canArrive (g : Group) : LaneMask :=
  g.running.foldl (fun m p => if p.wait = 1 ∨ p.wait = 2 then m else m ||| p.domain) 0

/-- Whether rejoin register `n` meets a condition of release (R159). -/
def Group.releases (g : Group) (n : Nat) : Bool :=
  let r := tget {} g.j n
  let missing := r.expected &&& ~~~r.arrived
  decide (r.state = 1) && !(g.waiters n).isEmpty && decide (missing &&& g.canArrive = 0)

/-- The rejoin registers evaluated: the first from j0 that meets a condition begins its release, when
none is in progress (R159, R160). -/
def Group.evaluate (g : Group) (now : Nat) : Group :=
  if g.releasing then g
  else
    match leastFrom g.releases 0 8 with
    | none => g
    | some n =>
      let r := tget {} g.j n
      { g with j := tset {} g.j n { r with state := 2, start := now,
                                           partialRel := decide (r.arrived ≠ r.expected) } }

/-- The member of the lowest id. -/
def lowestId (w : List Split) : Split :=
  w.foldl (fun m p => if p.id < m.id then p else m) (w.headD {})

/-- The place of a merged split: m's when resident, else that of the lowest-id resident member, else
m's paddock entry (R161). -/
def mergedPlace (w : List Split) : Nat :=
  let m := lowestId w
  if m.place < 64 then m.place
  else
    match w.filter fun p => decide (p.place < 64) with
    | [] => m.place
    | r => (lowestId r).place

/-- The split that a release or a barrier makes of the splits `w` at a time of the clock (R160, R163). Its
AGE, which no rule names, is the cycle of the merge, as of a split created then (log entry 70). When it moves to
another entry it does not issue for 4 cycles (R146). -/
def merged (w : List Split) (fmt : Word) (wait cycle now : Nat) : Split :=
  let m := (lowestId w).setEff wait
  { m with
    place := mergedPlace w, fmt := fmt, prio := true, wj := 0
    age := BitVec.ofNat 32 cycle, idle := 0, due := false, grace := 0, yielded := none
    readyAt := now + if mergedPlace w = m.place then 1 else 4
    domain := w.foldl (fun a p => a ||| p.domain) 0
    exec := w.foldl (fun a p => a ||| p.exec) 0 }

/-- The splits `w` of a group replaced by their merger; its lanes' reservations are cleared, and a merger that
stays dormant is written into its paddock entry (R146, R152). -/
def Group.merge (g : Group) (w : List Split) (fmt : Word) (wait cycle now : Nat) : Group :=
  let n := merged w fmt wait cycle now
  let rest := g.splits.filter fun (p : Split) =>
    !(w.any fun (q : Split) => decide (q.id = p.id) && (q.handler == p.handler))
  let h := (({ g with splits := rest ++ [n] } : Group).clearResv n.domain).orphan
  if 64 ≤ n.place then h.setFlag statPADSW else h

/-- Whether every running split of the group waits at BAR (R163). -/
def Group.allAtBar (g : Group) : Bool := !g.running.isEmpty && g.running.all fun p => decide (p.eff = 2)

/-- The merge at BAR, when every live split has arrived; of one split too (R163). -/
def Group.barMerge (g : Group) (cycle now : Nat) : Group :=
  if g.allAtBar then g.merge g.running (lowestId g.running).fmt 2 cycle now else g

/-- The rejoin registers of a group evaluated, and freed entries taken (R146, R159). -/
def State.settle (s : State) (c g : Nat) : State :=
  ((s.modGroup c g fun y => y.evaluate s.now).journalPads c g).moveIn c 62

/-- What follows an arrival at BAR or an exit: the splits merge when every live one waits at BAR, and the
rejoin registers are evaluated (R159, R163). -/
def State.arrive (s : State) (c g : Nat) : State :=
  (s.modGroup c g fun y => y.barMerge (s.cycle c) s.now).settle c g

/-- A group has arrived at the block barrier: one split, waiting at BAR, and no trap (R214). -/
def Group.arrived (g : Group) : Bool :=
  !g.trap.active && (match g.splits with
    | [p] => decide (p.eff = 2)
    | _ => false)

/-- Whether a split waits in an RJSET or RJOIN for a register to be idle (R155, R156). -/
def Split.awaits (p : Split) (j : Nat) : Bool :=
  decide (p.eff = 3) && match p.waitI with
    | some (.rjset f) => decide (f.jr.toNat = j)
    | some (.rjoin f) => decide (f.jr.toNat = j)
    | _ => false

/-- The splits that wait so are ready to issue their instruction again (R149, R155, R156). -/
def Group.wake (g : Group) (j now : Nat) : Group :=
  { g with splits := g.splits.map fun p =>
      if p.awaits j && (p.handler == g.trap.active) then
        { p.setEff 0 with waitI := none, await := .none, idle := 0, due := false, grace := 0, readyAt := now + 1 }
      else p }

/-- REJOIN_RELEASE (R160): after 2 cycles a releasing register merges its waiters and goes idle, and the splits
that waited for that are ready to issue (R155, R156); the registers are evaluated again, or a trap that waited
for the release is taken (R159, R161, R166). In that case the evaluation waits for the TRET: the model's choice,
since R159 and R166 do not say which comes first (log entry 79). -/
def execRejoinRelease (core slot j : Nat) (s : State) : Out :=
  match s.group? core slot with
  | none => s.noEvent
  | some g =>
    let r := tget {} g.j j
    if r.state = 2 ∧ r.start + 2 ≤ s.now then
      let w := g.waiters j
      let s1 := s.modGroup core slot fun y =>
        let y1 := (if w = [] then y else y.merge w r.sfmt 0 (s.cycle core) s.now).wake j s.now
        { (if r.partialRel then y1.setFlag statJLOST else y1) with
          j := tset {} y1.j j { r with state := 0, start := 0, partialRel := false } }
      let s2 := (s1.journalPads core slot).moveIn core 62
      match (s2.group? core slot).getD g with
      | g2 =>
        match g2.trap.pending with
        | some t =>
          if g2.releasing then .next s2
          else .next ((s2.modGroup core slot fun y =>
            { y with trap := { y.trap with pending := none } }).takeTrap core slot t)
        | none => .next (s2.settle core slot)
    else s.noEvent

end Sys2Proof.Machine
end

