-- ==== Sys2Proof/Machine/Sys.lean ====
section
/-!
DEFINITION. The SYS instructions (major 0x01, R129 to R133).
-/
namespace Sys2Proof.Machine

/-- NOP (R129): no effect. -/
def execNop (f : FmtE) (s : State) : Out := s.issue fun cx => s.advance cx f.lx

/-- A stop of a claimed group at its debugger: DBGSTAT and an event of kind 11 (R389). -/
def State.dbgStop (s : State) (c g split cause : Nat) (pc : DWord) : State :=
  match s.group? c g with
  | none => s
  | some y =>
    match s.block? c y.block with
    | none => s
    | some k =>
      let lid := match s.launch? k.launch with
        | none => 0
        | some l => l.lid
      (s.modCore c fun x => { x with dbgstat := BitVec.ofNat 32 (cause + 256 * split) }).raise 64 11
        cause c lid (s.cycle c) pc (BitVec.ofNat 32 split)
        (BitVec.ofNat 32 (y.gid + 16 * k.blockId + 64 * k.gang))

/-- BKPT (R130): traps BKPT with IMM16, or stops at the debugger that has claimed the group. -/
def execBkpt (f : FmtE) (s : State) : Out :=
  s.issue fun cx =>
    if cx.grp.claimed then
      (s.dbgStop cx.core cx.slot cx.sp.id cBKPT cx.sp.pc).advance cx f.lx
    else s.trapAt cx cBKPT (f.imm16.setWidth 32) (cx.sp.nextPc f.lx)

/-- TRAP (R130): traps SOFTTRAP with IMM16. -/
def execTrap (f : FmtE) (s : State) : Out :=
  s.issue fun cx => s.trapAt cx cSOFTTRAP (f.imm16.setWidth 32) (cx.sp.nextPc f.lx)

/-- The group's held matrix entries become pending, and its held loops count in T again (R260, R270). -/
def State.unholdEntries (s : State) (c g uid : Nat) : State :=
  let k := clusterOf c
  let mine (e : MEntry) : Bool := decide (e.core = c ∧ e.gslot = g ∧ e.uid = uid ∧ e.state = 2)
  let n := ((s.cluster k).entries.filter fun e => mine e && decide (e.kind = 2)).length
  if (s.cluster k).entries.any mine then
    (s.modCluster k fun x => { x with entries := x.entries.map fun e =>
      if (mine e) then { e with state := 0, step := 0 } else e }).modGroup c g fun y =>
        { y with cmds := { y.cmds with t := y.cmds.t + n } }
  else s

/-- TRET (R130, R167): returns from the handler; in any other split it traps PRIV. -/
def execTret (_f : FmtE) (s : State) : Out :=
  s.issue fun cx =>
    if cx.sp.handler then
      let s1 := (s.trapReturn cx.core cx.slot).unholdEntries cx.core cx.slot cx.grp.uid
      .next { s1.settle cx.core cx.slot with mark := .done }
    else s.trap cx cPRIV 0

/-- YIELD (R131): the scheduler does not choose the split again until another split of the group has
issued or 64 cycles have passed; without another ready split, which is read as a resident one (log entry
70), it has no effect. -/
def execYield (f : FmtE) (s : State) : Out :=
  s.issue fun cx =>
    let others := cx.grp.running.any fun p => decide (p.id ≠ cx.sp.id ∧ p.wait = 0 ∧ p.place < 64)
    (if others then s.modSplit cx fun p => { p with yielded := some s.now } else s).advance cx f.lx

/-- The blocks (64 bytes) that the range of an ICINV overlaps, as first and last (R132). -/
def icinvRange (a len : Nat) : Nat × Nat := (a / 64, Nat.min (a + len - 1) (2 ^ 56 - 1) / 64)

/-- ICINV (R132): the core's fetched copies of the blocks that overlap the range are discarded. -/
def execIcinv (f : FmtE) (s : State) : Out :=
  s.issue fun cx =>
    let a := (cx.spair f.sa.toNat).toNat
    let len := (cx.s f.sb.toNat).toNat
    if len = 0 then s.advance cx f.lx
    else
      let r := icinvRange a len
      ((s.modCore cx.core fun x => { x with code := x.code.filter fun k =>
          (!decide (k.asid = cx.blk.asid ∧ r.1 ≤ k.block ∧ k.block ≤ r.2)) }).modG cx fun g =>
        { g with icinv := if g.icinv.contains r then g.icinv else r :: g.icinv }).advance cx f.lx

/-- The process group of a block's launch (R394, R396). -/
def State.pgOf (s : State) (k : Block) : PGroup :=
  match s.launch? k.launch with
  | none => {}
  | some l => l.pg

/-- The value of a special register (R89). -/
def State.special (s : State) (cx : Ctx) (i : Nat) : Word :=
  let g := cx.grp
  let k := cx.blk
  match i with
  | 0 => BitVec.ofNat 32 g.gid
  | 1 => BitVec.ofNat 32 k.blockId
  | 2 => BitVec.ofNat 32 k.gang
  | 3 => BitVec.ofNat 32 k.launch
  | 4 => BitVec.ofNat 32 g.nlanes
  | 5 => BitVec.ofNat 32 k.groups
  | 6 => BitVec.ofNat 32 k.gangSize
  | 7 => BitVec.ofNat 32 cx.sp.id
  | 8 => (helperMask g.nlanes).extractLsb' 0 32
  | 9 => (helperMask g.nlanes).extractLsb' 32 32
  | 10 => (helperMask g.nlanes).extractLsb' 64 32
  | 11 => g.cvm.extractLsb' 0 32
  | 12 => g.cvm.extractLsb' 32 32
  | 13 => g.stat
  | 14 => BitVec.ofNat 32 (s.cycle cx.core)
  | 15 => cx.sp.cycHi
  | 16 => g.prog
  | 17 => BitVec.ofNat 32 g.trap.cause
  | 18 => g.trap.pc.extractLsb' 0 32
  | 19 => g.trap.pc.extractLsb' 32 32
  | 20 => g.trap.info
  | 21 => g.cv.id
  | 22 => g.cv.members
  | 23 => g.cv.slip
  | 24 => g.cv.off
  | 25 => g.cv.stat
  | 26 => g.cv.tmo
  | 27 => BitVec.ofNat 32 (s.pgOf k).rank
  | 28 => BitVec.ofNat 32 (s.pgOf k).size
  | 29 => k.rollok
  | 30 => g.cmds.batchNo
  | 31 => g.cmds.batchDone
  | 32 => BitVec.ofNat 32 k.depth
  | 33 => BitVec.ofNat 32 (coreNo cx.core)
  | 34 => BitVec.ofNat 32 (clusterOf cx.core % 16)
  | 35 => BitVec.ofNat 32 (dieOf cx.core)
  | _ => 0

/-- SREAD (R133): s[SD] := the special register; reading CYCLE_LO latches the high half (R89). -/
def execSread (f : FmtE) (s : State) : Out :=
  s.issue fun cx =>
    let s1 := if f.imm16 = 14 then
        s.modSplit cx fun p => { p with cycHi := BitVec.ofNat 32 (s.cycle cx.core / 2 ^ 32) }
      else s
    (s1.setS cx f.sd.toNat (s.special cx f.imm16.toNat)).advance cx f.lx

/-- SWRITE (R133): CVM is written whole but its reserved bits, STAT by W1C but for flags that the hardware sets in this cycle, CVTMO whole; read-only
registers and unassigned indices ignore it. -/
def execSwrite (f : FmtE) (s : State) : Out :=
  s.issue fun cx =>
    let w := cx.s f.sa.toNat
    (s.modG cx fun g =>
      if f.imm16 = 11 then { g with cvm := (g.cvm.extractLsb' 32 32) ++ w }
      else if f.imm16 = 12 then
        { g with cvm := (0 : BitVec 16) ++ (w.extractLsb' 0 16) ++ (g.cvm.extractLsb' 0 32) }
      else if f.imm16 = 13 then { g with stat := statW1C g.stat (w &&& ~~~g.statNow) }
      else if f.imm16 = 26 then { g with cv := { g.cv with tmo := w } }
      else g).advance cx f.lx

end Sys2Proof.Machine
end

