-- ==== Sys2Proof/Machine/Cmd.lean ====
section
/-!
DEFINITION. Engine command words (R57 to R59), the checks of a command at acceptance (R60, R191, R194,
R357, R398), and which commands can write a range (R185, R303).
-/
namespace Sys2Proof.Machine

/-- Word `i` of a command. -/
def wd (w : List Word) (i : Nat) : Word := w.getD i 0

/-- The opcode, ACQ, REL, CVS and LAT bits and the scope codes of w0 (R57). -/
def cmdOp (w : List Word) : Nat := bits (wd w 0) 7 0
def cmdACQ (w : List Word) : Bool := (wd w 0).getLsbD 16
def cmdREL (w : List Word) : Bool := (wd w 0).getLsbD 17
def cmdCVS (w : List Word) : Bool := (wd w 0).getLsbD 18
def cmdLAT (w : List Word) : Bool := (wd w 0).getLsbD 19
def cmdASCOPE (w : List Word) : Nat := bits (wd w 0) 11 8
def cmdRSCOPE (w : List Word) : Nat := bits (wd w 0) 15 12

/-- Where an address of a command points (R59): a global address, an offset in the block's
allocation, or an offset in the buffer of a handle. -/
inductive Place where
  | glob (a : Nat)
  | loc (off : Nat)
  | hand (h : Word) (off : Nat)
deriving DecidableEq, Repr

/-- The place that words `i` and `i + 1` name, or none for an address that breaks R59. -/
def placeAt (w : List Word) (i : Nat) : Option Place :=
  let a : DWord := wd w (i + 1) ++ wd w i
  match bits a 63 62 with
  | 0 => if bits a 61 56 = 0 then some (.glob (bits a 55 0)) else none
  | 2 => if bits a 61 20 = 0 then some (.loc (bits a 19 0)) else none
  | 3 =>
    if bits a 61 52 = 0 ∧ bits a 29 20 = 0 then
      some (.hand (BitVec.ofNat 32 (bits a 51 20)) (bits a 19 0))
    else none
  | _ => none

/-- A place `n` bytes further on: modulo 2^56 for a global base, modulo 2^32 for a scratchpad base
(R194). -/
def Place.plus (p : Place) (n : Nat) : Place :=
  match p with
  | .glob a => .glob ((a + n) % 2 ^ 56)
  | .loc o => .loc ((o + n) % 2 ^ 32)
  | .hand h o => .hand h ((o + n) % 2 ^ 32)

def Place.isGlob : Place → Bool
  | .glob _ => true
  | _ => false

def Place.isHand : Place → Bool
  | .hand .. => true
  | _ => false

/-- The address or the offset of a place. -/
def Place.off : Place → Nat
  | .glob a => a
  | .loc o => o
  | .hand _ o => o

/-- The owner field of a global address (R336). -/
def ownerOf (a : Nat) : Nat := a / 2 ^ 53 % 8

/-- The queue that takes an opcode (R60). -/
def opQueue (op : Nat) : Nat :=
  if op ≤ 3 then 0 else if op ≤ 5 then 1 else if op = 6 then 2 else if op ≤ 9 then 3
  else if op = 10 then 4 else if op = 11 then 5 else 6

/-- The words an opcode uses beside w0 (R194, R398); w9 with CVS. -/
def usedWords (op : Nat) (cvs : Bool) : List Nat :=
  (match op with
    | 1 => [1, 2, 3, 4, 5]
    | 2 => [1, 2, 3, 4, 5, 6, 7, 8]
    | 3 => [1, 4, 5, 10]
    | 4 => [1, 2, 3, 4, 5, 6, 8, 10]
    | 5 => [1, 2, 3, 4, 5, 7, 8, 10]
    | 6 => [4, 5, 6, 10, 12, 13, 14, 15]
    | 7 => [1, 2, 3, 4, 5, 10, 11, 12, 13]
    | 8 => [1, 2, 3, 4, 5, 10, 11, 12, 13]
    | 9 => [1, 2, 3, 4, 5, 10, 12, 13]
    | 10 => [1, 2, 3]
    | 11 => [1, 2, 3, 10]
    | _ => [1, 2, 3, 4, 5, 12]) ++ (if cvs then [9] else [])

/-- Whether an opcode has a source and a destination address (R194). -/
def hasSrc (op : Nat) : Bool := !(op == 3 || op == 6)
def hasDst (op : Nat) : Bool := !(op == 10 || op == 11)

/-- Whether the opcode requires a global address at the source (2) or the destination (4) (R60). -/
def mustBeGlobal (op i : Nat) : Bool :=
  if i = 2 then op == 10 || op == 11 else op == 6 || op == 12

/-- An address that breaks R59 or is not global where it must be, at w[i] (R60). -/
def badAddr (w : List Word) (i : Nat) : Bool :=
  match placeAt w i with
  | none => true
  | some p => mustBeGlobal (cmdOp w) i && !p.isGlob

/-- A check of acceptance that fails: cause, bits [27:24], the operand and whether it is a handle
address. -/
structure Reject4 where
  cause : Nat
  code : Nat := 0
  opnd : Nat := 7
  handle : Bool := false
deriving DecidableEq, Repr

/-- TRAPINFO of a trap of PUSH (R60, R191). -/
def Reject4.info (r : Reject4) (q : Nat) : Word :=
  BitVec.ofNat 32 (127 + (if r.handle then 512 else 0) + 4096 + r.opnd * 8192 + q * 65536 +
    r.code * 2 ^ 24)

/-- A BADCMD of a code and operand. -/
def bad (code : Nat) (opnd : Nat := 7) : Option Reject4 := some { cause := cBADCMD, code, opnd }

/-- A BADCMD of a check of step 4 that the address at w[i] fails (R191). -/
def badAt (w : List Word) (opnd i : Nat) : Option Reject4 :=
  some { cause := cBADCMD, code := 9, opnd, handle := (placeAt w i).any Place.isHand }

/-- Whether a scope pair is malformed: the flag set with no scope of 1 to 6, or clear with a scope. -/
def badScope (flag : Bool) (scope : Nat) : Bool :=
  if flag then decide (scope = 0 ∨ 6 < scope) else decide (scope ≠ 0)

/-- The format checks of step 3 of R60, in the order of its codes 2 to 8 and of its operands (log entry 37). -/
def formatCheck (w : List Word) (q : Nat) : Option Reject4 :=
  let op := cmdOp w
  if op = 0 ∨ 12 < op then bad 2
  else if opQueue op ≠ q then bad 3
  else if bits (wd w 0) 31 20 ≠ 0 then bad 4
  else if badScope (cmdACQ w) (cmdASCOPE w) || badScope (cmdREL w) (cmdRSCOPE w) then bad 5
  else if cmdCVS w && !(op == 1 || op == 2 || op == 4) then bad 6
  else if hasSrc op && badAddr w 2 then bad 7 0
  else if hasDst op && badAddr w 4 then bad 7 1
  else if (rangeFrom 1 15).any fun i => !(usedWords op (cmdCVS w)).contains i && decide (wd w i ≠ 0)
    then bad 8
  else none

/-- A range of an operand: its code, place and length. An indexed operand has length 0 (R194). -/
structure Range where
  opnd : Nat
  place : Place
  len : Nat
deriving DecidableEq, Repr

/-- The rows of a COPY2D at one side; without rows, the operand alone (R191, R194). Rows of no bytes are
checked as rows all the same (log entry 76). -/
def rows (opnd : Nat) (p : Place) (len n stride : Nat) : List Range :=
  (rangeFrom 0 (Nat.max 1 n)).map fun r =>
    { opnd, len := if n = 0 then 0 else len, place := match p with
        | .glob a => .glob (a + r * stride)
        | .loc o => .loc (o + r * stride)
        | .hand h o => .hand h (o + r * stride) }

/-- The bytes of a collective's vector (R398). -/
def collBytes (w : List Word) : Nat := 4 * (wd w 1).toNat

/-- The ranges of a command in the order source, destination, index buffer, result address, for a
group of rank `rank` (R191, R194, R398). -/
def cmdRanges (w : List Word) (rank : Nat) : List Range :=
  let n := (wd w 1).toNat
  let cnt := (wd w 8).toNat
  let root := decide ((wd w 12).toNat = rank)
  let src (len : Nat) : List Range := match placeAt w 2 with
    | some p => [{ opnd := 0, place := p, len }]
    | none => []
  let dst (len : Nat) : List Range := match placeAt w 4 with
    | some p => [{ opnd := 1, place := p, len }]
    | none => []
  match cmdOp w with
  | 1 => src n ++ dst n
  | 2 =>
    (match placeAt w 2 with
      | some p => rows 0 p n cnt (wd w 6).toNat
      | none => []) ++
    (match placeAt w 4 with
      | some p => rows 1 p n cnt (wd w 7).toNat
      | none => [])
  | 3 => dst n
  | 4 => src 0 ++ dst (n * cnt) ++ [{ opnd := 2, place := .loc (wd w 10).toNat, len := 4 * cnt }]
  | 5 => src (n * cnt) ++ dst 0 ++ [{ opnd := 2, place := .loc (wd w 10).toNat, len := 4 * cnt }]
  | 6 =>
    let b := 2 ^ bits (wd w 10) 9 8
    dst b ++ [{ opnd := 3, place := .loc (wd w 6).toNat, len := b }]
  | 7 => src (collBytes w) ++ dst (if root then collBytes w else 0)
  | 8 => src (collBytes w) ++ dst (collBytes w)
  | 9 => src (if root then collBytes w else 0) ++ dst (collBytes w)
  | 10 => src n
  | 11 => src n
  | _ => src n ++ dst n

/-- Row 1 of R191 for one range. -/
def ownerCheck (r : Range) : Option Reject4 :=
  match r.place with
  | .glob a =>
    if 4 < ownerOf a ∨ 2 ^ 56 < a + r.len ∨ (r.len ≠ 0 ∧ 4 < ownerOf (a + r.len - 1)) then
      bad 9 r.opnd
    else none
  | _ => none

/-- The types that an operation of R119 accepts. -/
def opTypes (op : Nat) : List Nat :=
  if op ≤ 4 then [0, 1] else if op ≤ 7 then [0] else if op ≤ 10 then [2, 3, 4] else []

/-- A place whose offset or address is a multiple of 4. -/
def Place.aligned4 (p : Place) : Bool := p.off % 4 == 0

/-- The address at w[i] is a multiple of 4, or all zero. -/
def aligned4At (w : List Word) (i : Nat) : Bool :=
  match placeAt w i with
  | some p => p.aligned4
  | none => false

/-- Whether the address at w[i] is all zero. -/
def zeroAt (w : List Word) (i : Nat) : Bool := wd w i == 0 && wd w (i + 1) == 0

/-- The checks of step 4 that belong to one opcode and trap BADCMD (R194, R290, R357, R398). An index buffer
whose offset is not a multiple of 4, which R194 does not list among the format failures, is one (log entry
76). -/
def opcodeCheck (w : List Word) (pg : PGroup) : Option Reject4 :=
  let n := (wd w 1).toNat
  let cnt := (wd w 8).toNat
  let op := cmdOp w
  let last := (wd w 9).toNat + (if op = 1 then n else n * cnt)
  let b := 2 ^ bits (wd w 10) 9 8
  let rank := (wd w 12).toNat
  if cmdCVS w && decide (2 ^ 32 < last) then bad 9
  else if op = 4 ∨ op = 5 then
    if 256 < n then bad 9
    else if (wd w 10).toNat % 4 ≠ 0 then bad 9 2
    else none
  else if op = 6 then
    let k := bits (wd w 10) 3 0
    let size := bits (wd w 10) 9 8
    if size < 2 ∨ 11 < k ∨ (k = 11 ∧ size = 3) then bad 9
    else if (wd w 4).toNat % b ≠ 0 then bad 9 1
    else if (wd w 6).toNat % b ≠ 0 then bad 9 3
    else none
  else if 7 ≤ op ∧ op ≤ 9 then
    let parts := (wd w 10).toNat
    let isRoot := decide (rank = pg.rank)
    if parts = 0 ∨ 65535 < parts ∨ (parts = 1 ∧ !isRoot) ∨ pg.size ≤ rank ∨ 2 ^ 22 < n then bad 9
    else if op ≠ 9 ∧ (bits (wd w 11) 31 8 ≠ 0 ∨ 4 < bits (wd w 11) 7 4 ∨
        !(opTypes (bits (wd w 11) 3 0)).contains (bits (wd w 11) 7 4)) then bad 9
    else if op = 9 ∧ !isRoot ∧ !zeroAt w 2 then badAt w 0 2
    else if op ≠ 9 ∧ !aligned4At w 2 then badAt w 0 2
    else if op = 7 ∧ !isRoot ∧ !zeroAt w 4 then badAt w 1 4
    else if op ≠ 9 ∧ !aligned4At w 4 then badAt w 1 4
    else none
  else if op = 11 then
    let whole := (wd w 10).getLsbD 8
    if bits (wd w 10) 31 9 ≠ 0 then bad 9
    else if whole ∧ (n ≠ 1 ∨ wd w 2 ≠ 0 ∨ bits (wd w 3) 20 0 ≠ 0) then bad 9
    else none
  else if op = 12 then (if pg.size ≤ rank then bad 9 else none)
  else none

/-- Row 2 of R191 for one range. -/
def localCheck (k : Block) (r : Range) : Option Reject4 :=
  match r.place with
  | .loc o => if r.len ≠ 0 ∧ k.usable < o + r.len then some { cause := cSPADBOUND, opnd := r.opnd }
              else none
  | _ => none

/-- Row 3 of R191 for one range. -/
def handleCheck (s : State) (cx : Ctx) (r : Range) : Option Reject4 :=
  match r.place with
  | .hand h o =>
    if s.handleReason cx.core cx.grp.block h ≠ 0 then
      some { cause := cHANDLE, opnd := r.opnd, handle := true }
    else if r.len ≠ 0 ∧ 32 * (s.handleBuf cx.core h).len32 < o + r.len then
      some { cause := cSPADBOUND, opnd := r.opnd, handle := true }
    else none
  | _ => none

/-- Whether a place of a block reaches bytes of a core's scratchpad: home core and first byte. -/
def Place.spadAt (p : Place) (s : State) (core : Nat) (k : Block) : Option (Nat × Nat) :=
  match p with
  | .glob _ => none
  | .loc o => some (core, k.base + o)
  | .hand h o => some (handleHome core h, (s.handleBuf core h).base + o)

/-- Whether a global range of a VF, of at least one byte, overlaps a seal entry of an owner die of it
(R303). -/
def State.globSealed (s : State) (vf a len : Nat) : Bool :=
  decide (len ≠ 0) && (rangeFrom 0 4).any fun d => (s.die d).gseals.any fun e =>
    decide (e.vf = vf ∧ a < e.addr + e.len ∧ e.addr < a + len)

/-- Row 4 of R191 for one range that the command writes. -/
def sealCheck (s : State) (cx : Ctx) (w : List Word) (rank : Nat) (r : Range) : Option Reject4 :=
  let hit := match r.place with
    | .glob a => (cmdOp w != 12 || decide ((wd w 12).toNat = rank)) && s.globSealed cx.blk.vf a r.len
    | p => match p.spadAt s cx.core cx.blk with
      | some (home, a) => decide (r.len ≠ 0) && s.spadSealed home a r.len
      | none => false
  let handle := match r.place with
    | .hand .. => true
    | _ => false
  if (r.opnd = 1 ∨ r.opnd = 3) ∧ hit = true then some { cause := cSEALED, opnd := r.opnd, handle }
  else none

/-- Step 4 of R60, row by row (R191). The checks that belong to one opcode, for which the table has no row,
come after its BADCMD row and before the others (log entry 76). -/
def extentCheck (s : State) (cx : Ctx) (w : List Word) : Option Reject4 :=
  let pg := s.pgOf cx.blk
  let rs := cmdRanges w pg.rank
  (rs.findSome? ownerCheck).or <| (opcodeCheck w pg).or <| (rs.findSome? (localCheck cx.blk)).or <|
    (rs.findSome? (handleCheck s cx)).or <| rs.findSome? (sealCheck s cx w pg.rank)

/-- Whether writes of a command can reach a range of a core's scratchpad (R185). -/
def Cmd.writesSpad (m : Cmd) (s : State) (core : Nat) (k : Block) (home a len : Nat) : Bool :=
  let rs := (cmdRanges m.w (s.pgOf k).rank).filter fun r => r.opnd = 1 ∨ r.opnd = 3
  rs.any fun r =>
    match r.place.spadAt s core k with
    | none => false
    | some (h, b) =>
      decide (h = home) && (decide (cmdOp m.w = 5) || decide (r.len ≠ 0 ∧ a < b + r.len ∧ b < a + len))

/-- Whether writes of a command can reach a global range (R303). -/
def Cmd.writesGlob (m : Cmd) (rank a len : Nat) : Bool :=
  let rs := (cmdRanges m.w rank).filter fun r => r.opnd = 1
  rs.any fun r =>
    match r.place with
    | .glob b => decide (cmdOp m.w = 5) || decide (r.len ≠ 0 ∧ a < b + r.len ∧ b < a + len)
    | _ => false

/-- Whether a command names a handle (R248). -/
def Cmd.names (m : Cmd) (h : Word) : Bool :=
  let at_ (i : Nat) : Bool := match placeAt m.w i with
    | some (.hand g _) => decide (g = h)
    | _ => false
  (hasSrc (cmdOp m.w) && at_ 2) || (hasDst (cmdOp m.w) && at_ 4)

/-- The accepted commands of a block on a core. -/
def Core.blockCmds (x : Core) (b : Nat) : List Cmd := x.cmds.filter fun m => decide (m.block = b)

end Sys2Proof.Machine
end

