-- ==== Sys2Proof/Machine/Eng.lean ====
section
/-!
DEFINITION. The ENG instructions (major 0x14, R190 to R202).
-/
namespace Sys2Proof.Machine

/-- A command taken into its queue (R191, R197, R200). -/
def State.accept (s : State) (cx : Ctx) (w : List Word) (q : Nat) : State :=
  let (n, s1) := s.freshUid
  let m : Cmd :=
    { seq := n, queue := q, w, slot := cx.slot, uid := cx.grp.uid, block := cx.grp.block
      buid := cx.blk.uid, interval := cx.blk.interval, vf := cx.blk.vf, asid := cx.blk.asid
      launch := cx.blk.launch, fences := cx.grp.cmds.fences, acceptedAt := s.now
      stream := cmdCVS w && cx.grp.cv.id != 0 }
  (s1.modCore cx.core fun x => { x with cmds := x.cmds ++ [m] }).modG cx fun g =>
    { g with cmds := { g.cmds with
        p := g.cmds.p + 1
        unclosed := { g.cmds.unclosed with
          open_ := g.cmds.unclosed.open_ + 1, count := g.cmds.unclosed.count + 1 } } }

/-- PUSH (R191, R192): the checks of R60, then the command is taken (0) or refused for lack of space
(1). -/
def execPush (f : FmtE) (s : State) : Out :=
  s.issue fun cx =>
    let q := f.q.toNat
    let w := (rangeFrom f.sa.toNat 16).map cx.s
    if !cx.anyLaunched then (s.setS cx f.sd.toNat 0).advance cx f.lx
    else if 6 < q then s.trap cx cBADCMD (Reject4.info { cause := cBADCMD, code := 1 } q)
    else if q = 5 ∧ !cx.blk.priv then s.trap cx cPRIV 0
    else
      match (formatCheck w q).or (extentCheck s cx w) with
      | some r => s.trap cx r.cause (r.info q)
      | none =>
        let used := ((s.core cx.core).cmds.filter fun m =>
          decide (m.queue = q ∧ m.startedAt = none)).length
        if 32 ≤ used then (s.setS cx f.sd.toNat 1).advance cx f.lx
        else ((s.accept cx w q).setS cx f.sd.toNat 0).advance cx f.lx

/-- The unclosed set becomes batch `n`; the status of the batch 64 before it is forgotten (R195,
R198). -/
def GCmds.close (k : GCmds) (n : Word) (bound : Nat) : GCmds :=
  GCmds.advanceDone { k with
    batchNo := n
    batches := tput (tdel k.batches (n - 64).toNat) n.toNat { k.unclosed with upto := bound }
    unclosed := {} } 17

/-- BCLOSE (R195). -/
def execBclose (f : FmtE) (s : State) : Out :=
  s.issue fun cx =>
    let k := cx.grp.cmds
    if k.batchNo - k.batchDone = 16 then s.waitIn cx (.bclose f) .none
    else
      let n := k.batchNo + 1
      (((s.modG cx fun g => { g with cmds := g.cmds.close n s.uidSeq }).modCore cx.core fun x =>
          { x with cmds := x.cmds.map fun m =>
              if m.slot = cx.slot ∧ m.uid = cx.grp.uid ∧ m.batch = none then
                { m with batch := some n.toNat } else m }).setS cx f.sd.toNat n).advance cx f.lx

/-- A batch number not yet made (R196). -/
def GCmds.notMade (k : GCmds) (n : Word) : Bool :=
  decide (n = 0) || decide (1 ≤ (n - k.batchNo).toNat ∧ (n - k.batchNo).toNat < 2 ^ 31)

/-- Whether a held batch up to `n` has an error that no BWAIT has reported (R196). -/
def unreported (n : Word) (kb : Nat × Batch) : Bool :=
  decide ((n - BitVec.ofNat 32 kb.1).toNat < 2 ^ 31) && decide (kb.2.status &&& bsBAD ≠ 0) &&
    decide (kb.2.status &&& bsREPORTED = 0)

/-- The oldest of the batches up to `n` (R196). -/
def oldestBatch (n : Word) (l : List (Nat × Batch)) : Option (Nat × Batch) :=
  l.foldl (fun b kb =>
    match b with
    | none => some kb
    | some o =>
      if (n - BitVec.ofNat 32 o.1).toNat < (n - BitVec.ofNat 32 kb.1).toNat then some kb else b) none

/-- What BWAIT on batch `n` does when it issues or looks again (R196). -/
def bwaitOn (f : FmtE) (n : Word) (s : State) (cx : Ctx) : Out :=
  let k := cx.grp.cmds
  if k.notMade n then s.trap cx cBATCHERR 1
  else if 2 ^ 31 ≤ (k.batchDone - n).toNat then s.waitIn cx (.bwait f) (.word n)
  else if f.imm16 = 1 then
    match oldestBatch n (k.batches.filter (unreported n)) with
    | none => s.advance cx f.lx
    | some (_, b) =>
      (s.modG cx fun g => { g with cmds := { g.cmds with
          batches := g.cmds.batches.map fun kb =>
            if (unreported n kb) = true then
              (kb.1, { kb.2 with status := kb.2.status ||| bsREPORTED }) else kb } }).trapAt cx
        cBATCHERR (BitVec.ofNat 32 (2 + 256 * bits (b.status ||| bsDONE) 7 0)) (cx.sp.nextPc f.lx)
  else s.advance cx f.lx

/-- BWAIT (R196). -/
def execBwait (f : FmtE) (s : State) : Out :=
  s.issue fun cx =>
    match cx.sp.await with
    | .word n => bwaitOn f n s cx
    | _ => bwaitOn f (cx.s f.sa.toNat) s cx

/-- The status word of a batch (R197). A number that is neither not made nor one of a batch that there was reads as
UNKNOWN (DESIGN CHOICE, log entry 82). -/
def GCmds.statusWord (k : GCmds) (n : Word) : Word :=
  if k.notMade n then bsNOTMADE
  else
    match tfind? k.batches n.toNat with
    | none => bsUNKNOWN
    | some b =>
      BitVec.ofNat 32 (Nat.min 255 b.count * 65536) ||| b.status |||
        (if b.open_ = 0 then bsDONE else 0)

/-- BSTAT (R197). -/
def execBstat (f : FmtE) (s : State) : Out :=
  s.issue fun cx =>
    (s.setS cx f.sd.toNat (cx.grp.cmds.statusWord (cx.s f.sa.toNat))).advance cx f.lx

/-- WAITC (R200, R201): waits until T, S, R and P are at or below its immediates. -/
def execWaitc (f : FmtE) (s : State) : Out :=
  s.issue fun cx =>
    let k := cx.grp.cmds
    if k.t ≤ bits f.imm16 15 12 ∧ k.s ≤ bits f.imm16 11 8 ∧ k.r ≤ bits f.imm16 7 4 ∧
        k.p ≤ bits f.imm16 3 0 then s.advance cx f.lx
    else s.waitIn cx (.waitc f) .none

/-- The element of lane `l` at RESID (R202). -/
def residOff (f : FmtE) (cx : Ctx) (l : Nat) : Nat :=
  (cx.s f.sa.toNat + BitVec.ofNat 32 (l * f.imm16.toNat)).toNat

/-- Whether lane `l`'s element lies below U (R173, R202). -/
def residIn (f : FmtE) (cx : Ctx) (l : Nat) : Bool :=
  decide (residOff f cx l + f.imm16.toNat ≤ cx.blk.usable)

/-- Whether a range of a core's scratchpad touches a line with its non-resident bit set (R202). -/
def State.spadNonres (s : State) (home a n : Nat) : Bool :=
  (rangeFrom (a / 32) ((a + n - 1) / 32 - a / 32 + 1)).any fun l => tget false (s.core home).nonres l

/-- RESID (R202): the lanes whose element is not wholly resident. -/
def execResid (f : FmtE) (s : State) : Out :=
  s.issue fun cx =>
    let ls := lanesOf cx.sp.exec
    match firstFail cx ls fun l => if residIn f cx l then none else some cSPADBOUND with
    | some (l, c) => s.trap cx c (BitVec.ofNat 32 l)
    | none =>
      (s.setK cx (f.sd.toNat % 8) cx.sp.domain (maskOfLanes (ls.filter fun l =>
        residIn f cx l &&
          s.spadNonres cx.core (cx.blk.base + residOff f cx l) f.imm16.toNat))).advance cx f.lx

end Sys2Proof.Machine
end

