-- ==== Sys2Proof/Config.lean ====
section
/-!
DEFINITION. What the spec leaves open or names without defining: free values and uninterpreted
functions. None has a body, so nothing can be proved of a value of it.
-/
namespace Sys2Proof.Config

/-- Which agent moves when State.script is empty: the spec leaves the order of agents free (R189,
R286, R359). DESIGN CHOICE (log entry 1). -/
opaque schedule : Nat → Machine.Action

/-- Bytes the spec leaves unspecified, such as those of a poisoned unit (R352) and of a replica
choice (R304); indexed by State.free. DESIGN CHOICE (log entry 5). -/
opaque freeByte : Nat → Byte

/-- Results the spec does not state; indexed by State.free. DESIGN CHOICE (log entry 5). -/
opaque freeWord : Nat → Word

/-- Choices the spec leaves to the device, indexed by State.free: whether a read is served by a
replica (R304). DESIGN CHOICE (log entry 5). -/
opaque freeBool : Nat → Bool

/-- Places of a memory stop's write queue (R282): the spec names the queue and gives no number. DESIGN
CHOICE (log entry 30). -/
opaque writeQueue : Nat

/-- AES-256-XTS of one 32-byte sector under the key pair of a VF, by tweak (R356). The spec names
AES-256-XTS and does not define it: an uninterpreted permutation. DESIGN CHOICE (log entry 6). -/
opaque xts (vf tweak : Nat) : Equiv.Perm (BitVec 256)

/-- The first 8 bytes of AES-256-CMAC under the integrity key of a VF (R349), uninterpreted.
DESIGN CHOICE (log entry 6). -/
opaque cmac (vf : Nat) (message : List Byte) : DWord

/-- The key of one direction of a link, out of this device or into it, and its salt, by how often they have
been set (R393). The controllers agree on them over SPDM; no rule gives a value. DESIGN CHOICE (log entry 6). -/
opaque linkKey (link gen : Nat) (out : Bool) : BitVec 256
opaque linkSalt (link gen : Nat) (out : Bool) : BitVec 32

/-- AES-256-GCM of the flits of a frame under a key and a 96-bit nonce (R393): the text and the 128-bit tag,
uninterpreted. DESIGN CHOICE (log entry 6). -/
opaque gcm (key : BitVec 256) (nonce : BitVec 96) (flits : List Machine.FabPkt) : List Byte × BitVec 128

/-- SHA-256 (R382, R384), uninterpreted. DESIGN CHOICE (log entry 6). -/
opaque sha256 (message : List Byte) : List Byte

/-- The RSA-3072 check of a firmware stage's digest against the Lerholt key (R382), uninterpreted.
DESIGN CHOICE (log entry 6). -/
opaque firmwareGood (digest signature : List Byte) : Bool

/-- The signature of the device identity key over a message, by the number of the signature, since
its salt is fresh each time (R383, R384), uninterpreted. DESIGN CHOICE (log entry 6). -/
opaque identitySign (number : Nat) (message : List Byte) : List Byte

/-- The public identity key and its certificate chain (R383), uninterpreted. DESIGN CHOICE (log
entry 6). -/
opaque certificate : List Byte

end Sys2Proof.Config
end

