-- ==== Sys2Proof/Machine/Mesh.lean ====
section
/-!
DEFINITION. The mesh of a die: ports and edges, routes, buffers, entry of packets and the bridge lanes
(R307 to R316, R324, R326).
-/
namespace Sys2Proof.Machine

/-- Port numbers of a router (R307). -/
abbrev pLocal : Nat := 0
abbrev pN : Nat := 1
abbrev pE : Nat := 2
abbrev pS : Nat := 3
abbrev pW : Nat := 4

/-- What an output port leads to (R307). -/
inductive Lead where
  /-- The cluster of the router. -/
  | cluster
  /-- An input port of another router. -/
  | router (r port : Nat)
  /-- A lane of the bridge to the die whose number differs by `x`. -/
  | bridge (lane x : Nat)
  /-- A memory stop. -/
  | stop (t : Nat)
deriving DecidableEq, Repr

/-- What port `q` of router `r` leads to (R307). -/
def leadsTo (r q : Nat) : Lead :=
  match q with
  | 1 => if r < 4 then .bridge r 1 else .router (r - 4) pS
  | 2 => if r % 4 = 3 then .stop (4 + r / 4) else .router (r + 1) pW
  | 3 => if 12 ≤ r then .bridge (r - 12) 2 else .router (r + 4) pN
  | 4 => if r % 4 = 0 then .stop (r / 4) else .router (r - 1) pE
  | _ => .cluster

/-- The port number by which a header names the link hub, which shares the W port of router 12 and the E port
of router 15 with stops 3 and 7 (R390). -/
abbrev pHub : Nat := 6

/-- Router and port of a memory stop (R313). -/
def stopRouter (t : Nat) : Nat := if t < 4 then 4 * t else 4 * (t - 4) + 3
def stopPort (t : Nat) : Nat := if t < 4 then pW else pE

/-- The target router on die `d` and the port by which a packet for router `r`, port `q` of die `dd`
leaves it (R313). -/
def targetOf (d dd r q : Nat) : Nat × Nat :=
  if dd = d then (r, q)
  else if dd = d ^^^ 2 then (12 + r % 4, pS)
  else (r % 4, pN)

/-- The output port of router `r` toward a target, in dimension order (R313). -/
def outPort (r route : Nat) (t : Nat × Nat) : Nat :=
  let px := if r % 4 < t.1 % 4 then pE else pW
  let py := if r / 4 < t.1 / 4 then pS else pN
  if r = t.1 then (if t.2 = pHub then (if r % 4 = 0 then pW else pE) else t.2)
  else if route = 0 then (if r % 4 ≠ t.1 % 4 then px else py)
  else (if r / 4 ≠ t.1 / 4 then py else px)

/-- The router that decides the lane of a destination on another die: the lowest of that die's
destinations (R326). -/
def laneRouter (dests : List (Nat × Nat × Nat)) (dd : Nat) : Nat :=
  (dests.filter fun x => decide (x.1 = dd)).foldl (fun m x => Nat.min m x.2.1) 15

/-- The output port of router `r` of die `d` toward one destination of a packet (R313, R326). -/
def portFor (d r : Nat) (p : Packet) (x : Nat × Nat × Nat) : Nat :=
  outPort r p.route (targetOf d x.1 (if x.1 = d then x.2.1 else laneRouter p.dests x.1) x.2.2)

/-- The output ports toward which a copy of a packet is to be sent (R326). -/
def portsOf (d r : Nat) (p : Packet) : List Nat := (p.dests.map (portFor d r p)).eraseDups

/-- The copy of a packet for one output port (R326). -/
def copyFor (d r q : Nat) (p : Packet) : Packet :=
  { p with dests := p.dests.filter fun x => decide (portFor d r p x = q) }

/-- Virtual channel of a packet (R310). -/
def Packet.vc (p : Packet) : Nat := 4 * p.route + 2 * p.kind + p.cls

/-- Flits in a buffer. -/
def flitsIn (l : List Slot) : Nat :=
  l.foldl (fun n x => n + (x.pkt.flits - x.short.toNat - x.body.toNat)) 0

/-- Key of an input buffer (State.Die). -/
def bufKey (r port vc : Nat) : Nat := 64 * r + 8 * port + vc

/-- The input buffer of a router. -/
def Die.buf (x : Die) (r port vc : Nat) : List Slot := tget [] x.bufs (bufKey r port vc)

/-- Whether an input asserts its stall bit: fewer than 3 free places of 4 (R315). -/
def Die.stalled (x : Die) (r port vc : Nat) : Bool := decide (1 < flitsIn (x.buf r port vc))

/-- A packet appended to an input buffer, waiting there from time `since` (R324). -/
def Die.enter (x : Die) (d r port since : Nat) (p : Packet) : Die :=
  let k := bufKey r port p.vc
  { x with bufs := tset [] x.bufs k (tget [] x.bufs k ++ [{ pkt := p, todo := portsOf d r p, since }]) }

/-- The state of the LFSR of entry point `n` (R312). -/
def Die.lfsrAt (x : Die) (n : Nat) : Nat :=
  match tfind? x.lfsr n with
  | some v => v
  | none => 0xACE1 ^^^ (0x0101 * n)

/-- The next state of an LFSR (R312). -/
def lfsrNext (v : Nat) : Nat :=
  let b (i : Nat) : Nat := v / 2 ^ i % 2
  (2 * v + (b 15 ^^^ b 13 ^^^ b 12 ^^^ b 10)) % 65536

/-- The parity of a number of at most 16 bits. -/
def parity (n : Nat) : Nat := ((rangeFrom 0 16).filter fun i => n.testBit i).length % 2


/-- The core that a message goes to: its destination, or its sender for a NACK (R205, R327). -/
def Msg.target (m : Msg) : Nat :=
  if m.kind = 2 then m.src else bits m.dest 13 12 * 64 + bits m.dest 11 8 * 4 + bits m.dest 7 6

/-- The core to which what belongs to a stolen task goes (R237). -/
def TaskMsg.target : TaskMsg → Nat
  | .record thief _ => thief
  | .ack _ r => r.victim
  | .nack thief _ => thief
  | .report owner .. => owner

/-- Its partition (R309). -/
def TaskMsg.part : TaskMsg → Nat
  | .record _ r => r.task.vf
  | .ack _ r => r.task.vf
  | .nack _ r => r.task.vf
  | .report _ _ _ _ vf => vf

/-- Its kind: records and reports are active messages, the other two answer them (R237, R311). -/
def TaskMsg.kind : TaskMsg → Nat
  | .record .. => 0
  | .report .. => 0
  | _ => 1

/-- Its packet (R308, R311). -/
def taskPacket (m : TaskMsg) : Packet :=
  { dests := [(dieOf m.target, clusterOf m.target % 16, pLocal)], route := 0, kind := m.kind, cls := 0
    part := m.part, payload := .task m }

/-- The core to which a packet carries a message, a NACK or what belongs to a stolen task (R205, R237). -/
def Packet.core? (p : Packet) : Option Nat :=
  match p.payload with
  | .msg m => some m.target
  | .task m => some m.target
  | _ => none

/-- The route bit of a message to a core that enters by `a` (source router and core, or lane number): the parity
of R312. -/
def msgRoute (a : List Nat) (c : Nat) : Nat :=
  (a ++ [clusterOf c % 16, coreNo c]).foldl (fun n x => n ^^^ parity x) 0

/-- A packet enters a die's mesh at entry point `n` and an input port: its route bit is chosen (R312), it
waits from the next cycle (R324), and the port takes the next packet once the flits of this one are in
(R307, R308). -/
def Die.inject (x : Die) (d n r port now : Nat) (who : List Nat) (p : Packet) : Die :=
  let y := { x with busy := tput x.busy (8 * r + port) (now + p.flits) }
  let z := match p.core? with
    | some m => y.enter d r port (now + 1) { p with route := msgRoute who m }
    | none =>
      let v := x.lfsrAt n
      ({ y with lfsr := tput x.lfsr n (lfsrNext v) }).enter d r port (now + 1) { p with route := v % 2 }
  z

/-- Whether a packet that would enter at an entry point finds its input port free in this cycle (R307) and no
stall (R315): the channel depends on the route bit that it would take. -/
def Die.canInject (x : Die) (n r port now : Nat) (who : List Nat) (p : Packet) : Bool :=
  let route := match p.core? with
    | some m => msgRoute who m
    | none => x.lfsrAt n % 2
  let vc := ({ p with route := route }).vc
  decide (tget 0 x.busy (8 * r + port) ≤ now) && !x.stalled r port vc && !x.stalls.contains (bufKey r port vc)

/-- Entry point number of a bridge lane (R312). -/
def laneEntry (lane : Nat) (v : Bool) : Nat := if v then 28 + lane else 24 + lane

/-- Key of a lane buffer (State.Die). -/
def laneKey (lane : Nat) (v : Bool) (vc : Nat) : Nat := 8 * (if v then 4 + lane else lane) + vc

/-- The flits of a lane buffer: those that have arrived, a body one cycle after its head, and the requests that
wait there to be translated (R316, R337). -/
def Die.laneFlits (x : Die) (k now : Nat) : Nat :=
  (tget [] x.lanes k).foldl (fun n sl =>
    n + (if sl.since ≤ now then 1 else 0) + (if sl.since + 1 ≤ now then sl.pkt.flits - 1 else 0)) 0 +
    (x.xlat.filter fun r => decide (r.lane = some k)).length

/-- The lane buffers that hold fewer than 52 free places of 64 at the end of a cycle: they assert their stall
bit (R316). -/
def Die.lanesFull (x : Die) (now : Nat) : List Nat :=
  (((x.lanes.filter fun kb => !kb.2.isEmpty).map (·.1)) ++ x.xlat.filterMap (·.lane)).eraseDups.filter fun k =>
    decide (12 < x.laneFlits k now)

/-- The die that owns the memory of a request: die 0 for the host region (R336). -/
def reqDie (va : Nat) : Nat := if va / 2 ^ 53 % 8 ≤ 3 then va / 2 ^ 53 % 8 else 0

/-- The packet of a unit request (R308, R311, R313). An untranslated request names its source router:
its lane is that of its source column. -/
def reqPacket (r : Req) : Packet :=
  { dests := [(reqDie r.va, clusterOf r.core % 16, 5)], route := 0, kind := 0
    cls := if r.lat then 0 else 1, part := r.vf, payload := .req r, srcX := clusterOf r.core % 4 }

/-- The packet of a message or a NACK (R308, R311). -/
def msgPacket (m : Msg) : Packet :=
  { dests := [(dieOf m.target, clusterOf m.target % 16, pLocal)], route := 0
    kind := if m.kind = 2 then 1 else 0, cls := 0, part := m.part
    flits := if m.kind ≠ 2 ∧ 64 < m.payload.length then 2 else 1, payload := .msg m }

/-- The router in whose cluster a die's controller of seals and convoys stands: its requests leave, and its
confirmations and bounds enter, by that router's local port (log entry 71). -/
abbrev ctlRouter : Nat := 0

/-- The packet of a seal request (R303, R305, R308, R311). -/
def askPacket (a : Ask) (lift : Bool) : Packet :=
  { dests := [(reqDie a.addr, ctlRouter, pLocal)], route := 0, kind := 0, cls := 0, part := a.vf
    payload := .ask a lift, srcX := clusterOf a.core % 4 }

/-- The die that holds a link (R390). -/
def linkDie (n : Nat) : Nat := if n < 5 then 0 else if n < 9 then 1 else if n < 13 then 2 else 3

/-- Router and input port of a die's link hub for a column: router 12 for columns 0 and 1 (R390). -/
def hubRouter (col : Nat) : Nat := if col < 2 then 12 else 15
def hubPort (r : Nat) : Nat := if r = 12 then pW else pE
/-- The hub's entry point at a router (R312). -/
def hubEntry (r : Nat) : Nat := if r = 12 then 32 else 33

/-- A fabric packet's kind on its virtual channel: 1 for replies (R311). -/
def FabPkt.vcKind (p : FabPkt) : Nat := if p.kind = 0 ∨ p.kind = 3 then 0 else 1
/-- Its channel on a link (R391). -/
def FabPkt.linkVc (p : FabPkt) : Nat := 2 * p.vcKind + p.cls

/-- The flits of a fabric packet: 256 bytes of data each (R308, R390). -/
def FabPkt.flits (p : FabPkt) : Nat := Nat.max 1 ((p.data.length + 255) / 256)

/-- The mesh packet of a fabric packet bound for the hub of a die, from column `col` (R390). -/
def hubPacket (vf die col : Nat) (p : FabPkt) : Packet :=
  { dests := [(die, hubRouter col, pHub)], route := 0, kind := p.vcKind, cls := p.cls, part := vf, flits := p.flits
    payload := .fab p, srcX := col }

/-- The mesh packet of a fabric packet bound for a core: an answer to its command. -/
def fabPacket (vf : Nat) (p : FabPkt) : Packet :=
  { dests := [(dieOf p.core, clusterOf p.core % 16, pLocal)], route := 0, kind := p.vcKind, cls := p.cls
    part := vf, flits := p.flits, payload := .fab p }

/-- A write or atomic has entered a bridge: toward the die XOR 3 the first of the two on its way counts (R362;
log entry 29). -/
def Fly.crossed (id : Nat) (f : Fly) : Fly :=
  if f.id = id then { f with stage := Nat.max f.stage 1 } else f

/-- One lane buffer drained by a packet: one of a partition in reset is discarded (R330), a request for this
die keeps its place there until it is translated and the lane's router takes it, and another packet enters the
lane's router when that shows no stall (R316, R337). What leaves the buffer now waits in the next cycle. -/
def State.drainLane (s : State) (d lane : Nat) (v : Bool) (vc : Nat) : State :=
  let x := s.die d
  match tget [] x.lanes (laneKey lane v vc) with
  | [] => s
  | sl :: rest =>
    let r := if v then 12 + lane else lane
    let port := if v then pS else pN
    let take (y : Die) : Die := { y with lanes := tset [] y.lanes (laneKey lane v vc) rest }
    let on : State :=
      if sl.since ≤ s.now ∧ x.canInject (laneEntry lane v) r port s.now [lane] sl.pkt then
        s.modDie d fun y => (take y).inject d (laneEntry lane v) r port s.now [lane] sl.pkt
      else s
    if s.now + 1 < sl.since then s
    else if (s.fn sl.pkt.part).resetting then s.modDie d take
    else
      match sl.pkt.payload with
      | .req q =>
        if reqDie q.va = d ∧ q.unit = 0 then
          s.modDie d fun y => { (take y) with
            xlat := y.xlat ++ [{ q with die := d, router := r, port, lane := some (laneKey lane v vc) }] }
        else on
      | _ => on

/-- The lane buffers of a die drained: each lane's input port takes one packet of one channel; which channel
goes first is left free (R307, R316). -/
def State.drainLanes (s : State) (d : Nat) : State :=
  if (s.die d).lanes = [] then s
  else
    let (n, s1) := s.freshFree
    let start := (Config.freeByte n).toNat
    (rangeFrom 0 64).foldl (fun t k => t.drainLane d (k / 8 % 4) (decide (32 ≤ k)) ((k + start) % 8)) s1

/-- In diagnostic fixed-latency mode a unit for a core's own die, which enters its router once it is translated,
takes the local input of the cycle in which it issued (R334). -/
def State.localTaken (s : State) (d n : Nat) : Bool :=
  s.fixlat && (s.die d).xlat.any fun q => decide (q.router = n ∧ q.port = pLocal)

/-- A unit request sent by a core: to the translation of its own die, or into its router's local input
toward another die; none when that input takes no packet (R316, R334, R337). In diagnostic fixed-latency mode
a unit for the core's own die enters its router in the same cycle, so it too needs that input. -/
def State.sendReq (s : State) (r : Req) : Option State :=
  let d := dieOf r.core
  let n := clusterOf r.core % 16
  let free := (s.die d).canInject n n pLocal s.now [] (reqPacket r) && !s.localTaken d n
  if reqDie r.va = d then
    if s.fixlat ∧ !free then none
    else
      some (s.modDie d fun x => { x with xlat := x.xlat ++ [{ r with die := d, router := n, port := pLocal }] })
  else if free then some (s.modDie d fun x => x.inject d n n pLocal s.now [] (reqPacket r))
  else none

end Sys2Proof.Machine
end

