-- ==== Sys2Proof/Machine/Rs.lean ====
section
/-!
DEFINITION. The Reed-Solomon codes of units over GF(256) and the placement of a unit's bytes in the
DRAM (R345, R346).
-/
namespace Sys2Proof.Machine

/-- Multiplication by α in GF(256) of field polynomial 0x11D (R346). -/
def gfX (a : Nat) : Nat := if 128 ≤ a then (2 * a) ^^^ 0x11D else 2 * a

/-- The product in GF(256), by the bits of `b` from bit `n - 1` down. -/
def gfMulFrom (a b : Nat) : Nat → Nat → Nat
  | 0, r => r
  | n + 1, r => gfMulFrom a b n (gfX r ^^^ if b.testBit n then a else 0)

/-- The product in GF(256). -/
def gfMul (a b : Nat) : Nat := gfMulFrom a b 8 0

/-- A power in GF(256). -/
def gfPow (a : Nat) : Nat → Nat
  | 0 => 1
  | n + 1 => gfMul a (gfPow a n)

/-- The inverse in GF(256), a^254. -/
def gfInv (a : Nat) : Nat := gfPow a 254

/-- α^n. -/
def alpha (n : Nat) : Nat := gfPow 2 (n % 255)

/-- A polynomial (lowest coefficient first) times (x − r). -/
def polyTimesRoot (p : List Nat) (r : Nat) : List Nat :=
  (0 :: p).zipWith (fun a b => a ^^^ b) ((p.map (gfMul r)) ++ [0])

/-- The generator of a code with `n` check symbols, lowest coefficient first (R346). -/
def rsGen : Nat → List Nat
  | 0 => [1]
  | n + 1 => polyTimesRoot (rsGen n) (alpha n)

/-- The check bytes of data bytes: the remainder of d(x) x^n by g(x), highest coefficient first
(R346). `gen` is the generator highest coefficient first, without its leading 1. -/
def rsCheckFrom (gen : List Nat) : List Nat → List Nat → List Nat
  | [], r => r
  | d :: ds, r =>
    let top := d ^^^ r.headD 0
    rsCheckFrom gen ds (((r.drop 1) ++ [0]).zipWith (fun a g => a ^^^ gfMul top g) gen)

/-- The `n` check bytes of data bytes (R346). -/
def rsChecks (n : Nat) (d : List Byte) : List Byte :=
  (rsCheckFrom ((rsGen n).reverse.drop 1) (d.map (·.toNat)) (List.replicate n 0)).map (BitVec.ofNat 8)

/-- A codeword (highest coefficient first) evaluated at x. -/
def evalAt (x : Nat) (c : List Nat) : Nat := c.foldl (fun r a => gfMul r x ^^^ a) 0

/-- The syndromes of a word of `n` check symbols. -/
def syndromes (n : Nat) (c : List Nat) : List Nat := (rangeFrom 0 n).map fun i => evalAt (alpha i) c

/-- Sums of a list in GF(256). -/
def gfSum (l : List Nat) : Nat := l.foldl (fun a b => a ^^^ b) 0

/-- The state of the Berlekamp-Massey iteration: locator, previous locator, its length, shift and
previous discrepancy. -/
structure BM where
  c : List Nat
  b : List Nat
  l : Nat
  m : Nat
  d : Nat

/-- Polynomials (lowest coefficient first) added. -/
def polyAdd : List Nat → List Nat → List Nat
  | [], q => q
  | p, [] => p
  | a :: p, b :: q => (a ^^^ b) :: polyAdd p q

/-- One step of the iteration at syndrome number `n`. -/
def bmStep (s : List Nat) (x : BM) (n : Nat) : BM :=
  let d := gfSum ((rangeFrom 0 (x.l + 1)).map fun i => gfMul (x.c.getD i 0) (s.getD (n - i) 0))
  if d = 0 then { x with m := x.m + 1 }
  else
    let t := polyAdd x.c (List.replicate x.m 0 ++ x.b.map (gfMul (gfMul d (gfInv x.d))))
    if 2 * x.l ≤ n then { c := t, b := x.c, l := n + 1 - x.l, m := 1, d := d }
    else { x with c := t, m := x.m + 1 }

/-- A polynomial (lowest coefficient first) at x. -/
def polyAt (p : List Nat) (x : Nat) : Nat := p.reverse.foldl (fun r a => gfMul r x ^^^ a) 0

/-- The odd coefficients of a polynomial: its formal derivative. -/
def polyDeriv (p : List Nat) : List Nat :=
  (rangeFrom 1 (p.length - 1)).map fun i => if i % 2 = 1 then p.getD i 0 else 0

/-- A received word decoded (R346): itself when it is a codeword, corrected within t symbols, or none.
The Boolean says whether a symbol was corrected. -/
def rsDecode (n : Nat) (c : List Nat) : Option (List Nat × Bool) :=
  let s := syndromes n c
  if s.all (· == 0) then some (c, false)
  else
    let x := (rangeFrom 0 n).foldl (bmStep s) { c := [1], b := [1], l := 0, m := 1, d := 1 }
    let omega := (rangeFrom 0 n).map fun k =>
      gfSum ((rangeFrom 0 (k + 1)).map fun i => gfMul (x.c.getD i 0) (s.getD (k - i) 0))
    let fixed := (rangeFrom 0 c.length).map fun j =>
      let inv := alpha (255 * 2 - (c.length - 1 - j))
      if polyAt x.c inv = 0 then
        c.getD j 0 ^^^ gfMul (alpha (c.length - 1 - j))
          (gfMul (polyAt omega inv) (gfInv (polyAt (polyDeriv x.c) inv)))
      else c.getD j 0
    let changed := ((rangeFrom 0 c.length).filter fun j => fixed.getD j 0 != c.getD j 0).length
    if 2 * x.l ≤ n ∧ changed = x.l ∧ (syndromes n fixed).all (· == 0) then some (fixed, true) else none

/-! ### Placement in the DRAM (R345) -/

/-- Bytes of a unit of a granule code (R339). -/
def granBytes (g : Nat) : Nat := 32 * 2 ^ g

/-- The DRAM byte that holds byte `a` of the physical space under a granule: stripes of 512 bytes, 32
bytes to each pseudo-channel (R345). -/
def dramCell (g a : Nat) : Nat :=
  let p := 2 ^ g
  let u := a % 512 / granBytes g
  let j := a % granBytes g
  a / 512 * 512 + 32 * (p * u + j % p) + j / p

/-- The side byte `i` of the unit at `a` under a granule, numbered 4 × sector + byte (R345). -/
def sideCell (g a i : Nat) : Nat :=
  let p := 2 ^ g
  let u := a % 512 / granBytes g
  4 * (a / 512 * 16 + p * u + i / 4) + i % 4

/-- The stop, and the die's channel, that serve a physical address under a granule (R345). -/
def stopOfPa (a : Nat) : Nat := a / 65536 % 8

/-! ### Check and MAC bytes among the side bytes (R346) -/

/-- Check symbols of a granule's code, and of each half for G256. -/
def rsSyms (g : Nat) : Nat := if g = 0 then 4 else if g = 3 then 12 else 8

/-- The side byte that holds check byte `m` of half `h` (G256) or of the unit. -/
def checkPos (g h m : Nat) : Nat :=
  match g with
  | 0 => m
  | 1 => 4 * (m % 2) + m / 2
  | 2 => 4 * (m / 2) + 2 + m % 2
  | _ => 4 * (2 * (m / 3) + h) + 1 + m % 3

/-- The side byte that holds byte `k` of the MAC (G128 and G256). -/
def macPos (g k : Nat) : Nat := if g = 2 then 4 * (k / 2) + k % 2 else 4 * k

/-- The data bytes of half `h` of a unit: for G256 those of even or odd number, else all. -/
def halfData (g h : Nat) (d : List Byte) : List Byte :=
  if g = 3 then (rangeFrom 0 (d.length / 2)).map fun i => d.getD (2 * i + h) 0 else d

/-- The halves of a granule's code. -/
def rsHalves (g : Nat) : List Nat := if g = 3 then [0, 1] else [0]

/-- The side bytes of a unit written: MAC bytes, then check bytes (R346, R348). -/
def sideBytes (g : Nat) (d : List Byte) (mac : List Byte) : List Byte :=
  let put (l : List Byte) (i : Nat) (b : Byte) : List Byte := l.set i b
  let l0 := List.replicate (granBytes g / 8) (0 : Byte)
  let l1 := if 2 ≤ g then (rangeFrom 0 8).foldl (fun l k => put l (macPos g k) (mac.getD k 0)) l0 else l0
  (rsHalves g).foldl (fun l h =>
    let cs := rsChecks (rsSyms g) (halfData g h d)
    (rangeFrom 0 (rsSyms g)).foldl (fun l m => put l (checkPos g h m) (cs.getD m 0)) l) l1

/-- The MAC bytes among the side bytes. -/
def sideMac (g : Nat) (side : List Byte) : List Byte :=
  (rangeFrom 0 8).map fun k => side.getD (macPos g k) 0

/-- A unit's stored bytes decoded with its side bytes: the corrected bytes and whether any symbol was
corrected, or none when uncorrectable (R346). -/
def unitDecode (g : Nat) (d side : List Byte) : Option (List Byte × Bool) :=
  let dec (h : Nat) : Option (List Nat × Bool) :=
    rsDecode (rsSyms g) ((halfData g h d).map (·.toNat) ++
      (rangeFrom 0 (rsSyms g)).map fun m => (side.getD (checkPos g h m) 0).toNat)
  if g = 3 then
    match dec 0, dec 1 with
    | some (a, x), some (b, y) =>
      some ((rangeFrom 0 d.length).map fun j =>
        BitVec.ofNat 8 ((if j % 2 = 0 then a else b).getD (j / 2) 0), x || y)
    | _, _ => none
  else (dec 0).map fun (a, x) => ((a.take d.length).map (BitVec.ofNat 8), x)

end Sys2Proof.Machine
end

