-- ==== Sys2Proof/Machine/Mem.lean ====
section
/-!
DEFINITION. Translation (R336 to R345), the reading and writing of units at a stop (R346 to R356) and
containment (R353, R378).
-/
namespace Sys2Proof.Machine

/-! ### Page tables (R338, R339) -/

/-- The 8-byte entry at a physical address: the value last written there, whatever has become of the stored
bytes (R341). -/
def Die.entryAt (x : Die) (pa : Nat) : DWord :=
  BitVec.ofNat 64 (leNat ((rangeFrom pa 8).map fun a => tget 0 x.plain a))

/-- BASE and LEN of a segment register, in bytes, when it is valid (R343). -/
def segOf (w : DWord) : Option (Nat × Nat) :=
  if w.getLsbD 63 then some (bits w 23 0 * 65536, bits w 55 32 * 65536) else none

/-- A page-table level: low bit and number of the index bits, size of the next level's table, and
whether a leaf or a table may stand there (R338). -/
structure PtLevel where
  lo : Nat
  n : Nat
  next : Nat
  leafOk : Bool
  tableOk : Bool

/-- The levels from the root down (R338). -/
def ptLevels : List PtLevel :=
  [⟨39, 14, 4096, false, true⟩, ⟨30, 9, 4096, true, true⟩, ⟨21, 9, 256, true, true⟩,
   ⟨16, 5, 0, true, false⟩]

/-- The fields of a leaf entry (R339). -/
def leafOf (w : DWord) (level : Nat) : Leaf :=
  { gran := bits w 61 60, integ := w.getLsbD 59, enc := w.getLsbD 58, sealok := w.getLsbD 57
    resident := w.getLsbD 56, quar := w.getLsbD 55, rd := w.getLsbD 54, wr := w.getLsbD 53
    at_ := w.getLsbD 52, frame := bits w 51 16 * 65536, level }

/-- A walk of the tables from one at segment offset `off`: the leaf and its page size, or none when
check 2 of R340 fails. -/
def Die.walkFrom (x : Die) (base len va : Nat) : List PtLevel → Nat → Option (Leaf × Nat)
  | [], _ => none
  | l :: ls, off =>
    let at_ := off + 8 * (va / 2 ^ l.lo % 2 ^ l.n)
    let w := x.entryAt (base + at_)
    if len < at_ + 8 ∨ !w.getLsbD 63 then none
    else if w.getLsbD 62 then
      let f := leafOf w (ls.length + 1)
      if l.leafOk ∧ f.frame % 2 ^ l.lo = 0 then some (f, 2 ^ l.lo) else none
    else
      let next := bits w 51 8 * 256
      if l.tableOk ∧ bits w 61 52 = 0 ∧ bits w 7 0 = 0 ∧ next % l.next = 0 then
        x.walkFrom base len va ls next
      else none

/-- The ASID table entry is valid and names the VF: the root's segment offset (R340, R342). -/
def Die.rootOf (x : Die) (asid vf : Nat) : Option Nat :=
  let w := tget 0 x.asidT asid
  if w.getLsbD 63 ∧ bits w 62 58 = 0 ∧ bits w 16 0 = 0 ∧ bits w 57 52 = vf then
    some (bits w 51 17 * 2 ^ 17)
  else none

/-- A translation: the leaf, its page size, and the physical address and size of the unit. -/
structure Xlated where
  leaf : Leaf
  size : Nat
  pa : Nat
  unit : Nat
deriving DecidableEq, Repr

/-- Checks 3 to 6 of R340 for a leaf: the unit that `va` names, or the status to report. No check asks whether
the die has HBM at the physical address (log entry 73). -/
def Die.place (x : Die) (vf va kind : Nat) (leaf : Leaf) (size : Nat) : Except Word Xlated :=
  let host := decide (ownerBits va = 4)
  let unit := if host then 64 else granBytes leaf.gran
  let off := leaf.frame + (va % 2 ^ 53) % size / unit * unit
  let ok := match kind with
    | 0 => leaf.rd
    | 1 => leaf.wr
    | _ => leaf.at_
  if !ok then .error bsERROR
  else if !leaf.resident then .error bsNONRES
  else
    match segOf (tget 0 (if host then x.hostSeg else x.seg) vf) with
    | none => .error bsERROR
    | some (base, len) =>
      if len < off + unit then .error bsERROR
      else if leaf.integ ∧ (host ∨ leaf.gran < 2) then .error bsERROR
      else .ok { leaf, size, pa := base + off, unit }
where
  /-- The owner field of a global address. -/
  ownerBits (a : Nat) : Nat := a / 2 ^ 53 % 8

/-- The walk of an address (checks 1 and 2 of R340). -/
def Die.walk (x : Die) (asid vf va : Nat) : Option (Leaf × Nat) :=
  match x.rootOf asid vf, segOf (tget 0 x.seg vf) with
  | some root, some (base, len) => x.walkFrom base len (va % 2 ^ 53) ptLevels root
  | _, _ => none

/-- The translation of a unit from the page tables as they stand (R340). -/
def Die.translate (x : Die) (asid vf va kind : Nat) : Except Word Xlated :=
  match x.walk asid vf va with
  | none => .error bsERROR
  | some (leaf, size) => x.place vf va kind leaf size

/-! ### Translation slices (R341) -/

/-- The slice of an address under an ASID. -/
def sliceOf (asid va : Nat) : Nat := va / 2 ^ 21 % 8 ^^^ asid % 8

/-- The slice entry that maps an address. -/
def Die.hit (x : Die) (asid va : Nat) : Option TlbEntry :=
  x.tlb.find? fun e => decide (e.asid = asid ∧ e.va ≤ va ∧ va < e.va + e.size)

/-- The slice entry of a page, a 1 GiB page by the 2 MiB fragment that holds the address. -/
def entryFor (asid va : Nat) (leaf : Leaf) (size : Nat) : TlbEntry :=
  let n := Nat.min size (2 ^ 21)
  { asid, va := va / n * n, size := n
    leaf := { leaf with frame := leaf.frame + va % size / n * n } }

/-- A slice entry made; the oldest entry of a full slice gives way (log entry 21). -/
def Die.addEntry (x : Die) (e : TlbEntry) : Die :=
  let mine (o : TlbEntry) : Bool := decide (sliceOf o.asid o.va = sliceOf e.asid e.va)
  let old := x.tlb.filter fun o => decide ¬(o.asid = e.asid ∧ o.va = e.va ∧ o.size = e.size)
  let room := if 4096 ≤ (old.filter mine).length then
      match old.find? mine with
      | some o => old.erase o
      | none => old
    else old
  { x with tlb := room ++ [e] }

/-- The translation of a unit as a read of it has it: by the slice entry that maps it, or by a walk, which
makes one (R340, R341). -/
def Die.look (x : Die) (asid vf va kind : Nat) : Except Word Xlated × Die :=
  if (x.rootOf asid vf).isNone then (.error bsERROR, x)
  else
    match x.hit asid va with
    | some e => (x.place vf va kind e.leaf e.size, x)
    | none =>
      match x.translate asid vf va kind with
      | .ok t => (.ok t, x.addEntry (entryFor asid va t.leaf t.size))
      | .error w => (.error w, x)

/-- The size of the unit that holds a global address, as the engine asks for it: the page's granule, 64
for the host region, a sector where nothing is mapped (R279, R344). -/
def State.unitAt (s : State) (asid vf va : Nat) : Nat :=
  if va / 2 ^ 53 % 8 = 4 then 64
  else
    match (s.die (reqDie va)).walk asid vf va with
    | some (leaf, _) => granBytes leaf.gran
    | none => 32

/-! ### Stored bytes (R348, R356) -/

/-- The stored bytes and side bytes of a unit. -/
def Die.stored (x : Die) (g pa : Nat) : List Byte × List Byte :=
  ((rangeFrom pa (granBytes g)).map fun a => tget 0 x.hbm (dramCell g a),
   (rangeFrom 0 (granBytes g / 8)).map fun i => tget 0 x.side (sideCell g pa i))

/-- Stored bytes and side bytes of a unit replaced; its sectors are marked with the granule. -/
def Die.store (x : Die) (g pa : Nat) (d side : List Byte) : Die :=
  { x with
    hbm := (cellsAt pa d).foldl (fun t c => tset 0 t (dramCell g c.1) c.2) x.hbm
    side := (cellsAt 0 side).foldl (fun t c => tset 0 t (sideCell g pa c.1) c.2) x.side
    wgran := (rangeFrom (pa / 32) (2 ^ g)).foldl (fun t k => tset 0 t k g) x.wgran }

/-- A sector as a number and back. -/
def sectorNum (l : List Byte) : BitVec 256 := BitVec.ofNat 256 (leNat l)

/-- The 32-byte sectors of a unit mapped by a function of the sector's number and bytes. -/
def mapSectors (g : Nat) (d : List Byte) (f : Nat → BitVec 256 → BitVec 256) : List Byte :=
  (rangeFrom 0 (2 ^ g)).flatMap fun i =>
    natLe (f i (sectorNum ((d.drop (32 * i)).take 32))).toNat 32

/-- The unit's bytes as stored, or as read, under AES-256-XTS when ENC is 1 (R356). -/
def encrypt (leaf : Leaf) (vf pa : Nat) (d : List Byte) : List Byte :=
  if leaf.enc then mapSectors leaf.gran d fun i b => Config.xts vf (pa / 32 + i) b else d
def decrypt (leaf : Leaf) (vf pa : Nat) (d : List Byte) : List Byte :=
  if leaf.enc then mapSectors leaf.gran d fun i b => (Config.xts vf (pa / 32 + i)).symm b else d

/-- The MAC bytes of a unit's stored bytes (R349). -/
def macOf (vf pa : Nat) (d : List Byte) : List Byte :=
  natLe (Config.cmac vf (natLe pa 8 ++ natLe 0 8 ++ d)).toNat 8

/-- A unit written: encryption, MAC, check bytes (R348). -/
def Die.writeUnit (x : Die) (leaf : Leaf) (vf pa : Nat) (d : List Byte) : Die :=
  let c := encrypt leaf vf pa d
  x.store leaf.gran pa c (sideBytes leaf.gran c (if leaf.integ then macOf vf pa c else []))

/-- What decoding a unit's stored bytes gives (R348). -/
inductive Decoded where
  /-- Clean bytes as read, the corrected stored bytes, and whether a symbol was corrected. -/
  | good (bytes stored : List Byte) (fixed : Bool)
  | uncorrectable
  /-- The MAC does not match: the corrected stored bytes, and whether a symbol was corrected. -/
  | badMac (stored : List Byte) (fixed : Bool)
deriving DecidableEq, Repr

/-- Steps 2 to 5 of a read (R348). -/
def decodeUnit (leaf : Leaf) (vf pa : Nat) (d side : List Byte) : Decoded :=
  match unitDecode leaf.gran d side with
  | none => .uncorrectable
  | some (c, fixed) =>
    if leaf.integ ∧ macOf vf pa c ≠ sideMac leaf.gran side then .badMac c fixed
    else .good (decrypt leaf vf pa c) c fixed

/-! ### Poison and quarantine (R350 to R355) -/

/-- Whether a unit is in a stop's poison record. -/
def Stop.recorded (t : Stop) (pa unit : Nat) : Bool :=
  t.record.any fun r => decide (32 * r.1 < pa + unit ∧ pa < 32 * r.1 + granBytes r.2)

/-- Whether a unit's frame or page is quarantined (R354). -/
def Die.quarantined (x : Die) (leaf : Leaf) (pa : Nat) : Bool :=
  leaf.quar || (tfind? x.quarantine (pa / 65536)).isSome

/-- Fold entries of a stop that satisfy a condition closed to attachment (R280, R355). -/
def Stop.closeFolds (t : Stop) (p : Fold → Bool) : Stop :=
  { t with folds := t.folds.map fun f => if p f then { f with closed := true } else f }

/-- A request as the poison record and the quarantines now stand (R355): those of the unit's own die too for
one that a replica serves (R304). -/
def Req.sampled (r : Req) (s : State) (d t : Nat) : Req :=
  let own (d t pa : Nat) : Bool × Bool := ((s.stop d t).recorded pa r.unit, (s.die d).quarantined r.leaf pa)
  let (a, b) := own d t r.pa
  match r.home with
  | none => { r with recorded := a, quar := b }
  | some (e, pa) =>
    let (a', b') := own e (stopOfPa pa) pa
    { r with recorded := a || a', quar := b || b' }

/-- The requests to a unit that wait at its stop come after the one that has performed there: they are
to see what it did to the record and to the frame (R281, R355). -/
def State.resample (s : State) (d pa : Nat) : State :=
  s.modStop d (stopOfPa pa) fun t =>
    { t with inq := t.inq.map fun r => if r.pa = pa then r.sampled s d (stopOfPa pa) else r }

/-- Every VF of the device contained, and an event of kind 6 (R353, R378). -/
def State.containAll (s : State) (c : Nat) : State :=
  let s1 := (rangeFrom 0 64).foldl (fun t f => t.modFn f fun x => { x with contained := true, devloss := true }) s
  s1.raise 64 6 0 c 0 (s.cycle c) 0 0 0

/-- A unit entered in the poison record; a full record quarantines its frame, and a full quarantine
table loses containment (R351, R353). -/
def State.poisonUnit (s : State) (d c pa g : Nat) : State :=
  let t := stopOfPa pa
  let x := s.die d
  if (s.stop d t).recorded pa (granBytes g) then s
  else if (s.stop d t).record.length < 512 then
    s.modStop d t fun y =>
      ({ y with record := tput y.record (pa / 32) g }).closeFolds fun f => decide (f.key.1 = pa)
  else if x.quarantine.length < 4096 then
    let fr := pa / 65536
    (s.modDie d fun x => { x with quarantine := tput x.quarantine fr 1 }).modStop d t fun y =>
      ({ y with record := y.record.filter fun r => decide (32 * r.1 / 65536 ≠ fr) }).closeFolds
        fun f => decide (f.key.1 / 65536 = fr)
  else s.containAll c

/-- An integrity failure reported: the VF is contained and an event of kind 5 names the unit (R349,
R378). -/
def State.macFailure (s : State) (d c : Nat) (launch : Option Nat) (vf va pa : Nat) : State :=
  let s1 := (s.modFn vf fun x => { x with contained := true }).modStop d (stopOfPa pa) fun y =>
    { y with macf := y.macf + 1 }
  s1.raiseFor launch vf 5 c va

/-- `n` bytes that the spec leaves unspecified (R352). -/
def State.freeBytes (s : State) (n : Nat) : List Byte × State :=
  ((rangeFrom s.free n).map Config.freeByte, { s with free := s.free + n })

/-- What a read of a unit delivers: bytes, poison and status. -/
structure Delivered where
  bytes : List Byte
  poison : Bool
  status : Word
deriving DecidableEq, Repr

/-- A corrected unit counted, and written back when asked for (R348). -/
def State.corrected (s : State) (d pa : Nat) (leaf : Leaf) (c side : List Byte) (back : Bool) : State :=
  (if back then
    s.modDie d fun x => x.store leaf.gran pa c
      (sideBytes leaf.gran c (if 2 ≤ leaf.gran then sideMac leaf.gran side else []))
  else s).modStop d (stopOfPa pa) fun y => { y with cecnt := y.cecnt + 1 }

/-- A read of a unit delivered (R348, R352): `bad` says that the record or a quarantine held the unit when
it arrived. A corrected unit is written back unless a write to it has arrived; the read of an atomic always
does, its write being the next (R281). `c` is the requesting core, `launch` the launch that asks. -/
def State.deliver (s : State) (d c : Nat) (launch : Option Nat) (vf va pa : Nat) (leaf : Leaf) (bad : Bool)
    (atom : Bool := false) : Delivered × State :=
  let n := granBytes leaf.gran
  let poisoned (s : State) : Delivered × State :=
    let (b, t) := s.freeBytes n
    ({ bytes := b, poison := true, status := bsPOISON }, t)
  if bad then poisoned s
  else
    let (st, side) := (s.die d).stored leaf.gran pa
    let back := atom || !((s.stop d (stopOfPa pa)).inq.any fun r => decide (r.kind ≠ 0 ∧ r.pa = pa))
    match decodeUnit leaf vf pa st side with
    | .good b c' fixed =>
      ({ bytes := b, poison := false, status := 0 }, if fixed then s.corrected d pa leaf c' side back else s)
    | .uncorrectable =>
      poisoned (((s.modStop d (stopOfPa pa) fun y => { y with uecnt := y.uecnt + 1 }).poisonUnit d c pa
        leaf.gran).resample d pa)
    | .badMac c' fixed =>
      ({ bytes := List.replicate n 0, poison := false, status := bsERROR },
        (if fixed then s.corrected d pa leaf c' side back else s).macFailure d c launch vf va pa)

/-- Bytes `o` up of a unit replaced. -/
def spliceBytes (d : List Byte) (o : Nat) (l : List Byte) : List Byte :=
  d.take o ++ l ++ d.drop (o + l.length)

/-- Record entries of units that clean bytes from `pa` to `pa + n - 1` cover whole removed (R351). -/
def Stop.cleaned (t : Stop) (pa n : Nat) : Stop :=
  { t with record := t.record.filter fun r =>
      !decide (pa ≤ 32 * r.1 ∧ 32 * r.1 + granBytes r.2 ≤ pa + n) }

/-- A write at its stop (R303, R348, R351, R354): the status bits that it sets and the new state. `o`
is the offset of its bytes in the unit. -/
def State.performWrite (s : State) (d c : Nat) (launch : Option Nat) (vf va pa o : Nat) (leaf : Leaf)
    (data : List Byte) (poison : Bool) : Word × State :=
  let x := s.die d
  let t := stopOfPa pa
  let n := granBytes leaf.gran
  let sealed := x.gseals.any fun e => decide (e.vf = vf ∧ va < e.addr + e.len ∧ e.addr < va + data.length)
  let closed := s.modStop d t fun y => y.closeFolds fun f => decide (f.key.1 = pa)
  let put (l : List Byte) (s : State) : State :=
    s.modDie d fun x => { x.writeUnit leaf vf pa l with plain := tblWrite x.plain (pa + o) data }
  let mark (s : State) : State := (if poison then s.poisonUnit d c pa leaf.gran else s).resample d pa
  if x.quarantined leaf pa ∨ sealed then (bsERROR, s)
  else if data.length = n then
    (0, mark ((put data closed).modStop d t fun y => if poison then y else y.cleaned pa n))
  else
    let (st, side) := x.stored leaf.gran pa
    let merge (raw : List Byte) (s : State) : State := put (spliceBytes raw o data) s
    if (s.stop d t).recorded pa n then (0, mark (merge (decrypt leaf vf pa st) closed))
    else
      match decodeUnit leaf vf pa st side with
      | .good b _ fixed =>
        (0, mark (merge b (if fixed then
          closed.modStop d t fun y => { y with cecnt := y.cecnt + 1 } else closed)))
      | .uncorrectable =>
        (0, mark (merge (decrypt leaf vf pa st) ((closed.modStop d t fun y =>
          { y with uecnt := y.uecnt + 1 }).poisonUnit d c pa leaf.gran)))
      | .badMac _ fixed =>
        (bsERROR, (if fixed then s.modStop d t fun y => { y with cecnt := y.cecnt + 1 } else s).macFailure d c
          launch vf (va - o) pa)

/-- A die memory read that takes no Fold entry: instruction fetch, spad images, context images (R331,
R366). Its unit is translated and decoded like any read; no die maps an address whose owner is 5 to 7. -/
def State.readPlain (s : State) (c asid vf va : Nat) : Except Word (Xlated × List Byte × Bool) × State :=
  let d := reqDie va
  let (t, y) := if 4 < va / 2 ^ 53 % 8 then (.error bsERROR, s.die d) else (s.die d).look asid vf va 0
  let s := s.modDie d fun _ => y
  match t with
  | .error w => (.error w, s)
  | .ok x =>
    if va / 2 ^ 53 % 8 = 4 then
      (.ok (x, tblBytes s.hostMem x.pa 64, tget false s.hostPoison (x.pa / 64) || x.leaf.quar), s)
    else
      let bad := (s.stop d (stopOfPa x.pa)).recorded x.pa x.unit || (s.die d).quarantined x.leaf x.pa
      let (r, s1) := s.deliver d c none vf (va / x.unit * x.unit) x.pa x.leaf bad
      if r.status &&& bsERROR ≠ 0 then (.error bsERROR, s1) else (.ok (x, r.bytes, r.poison), s1)

/-- `n` bytes from a global address read so, unit by unit (at most `fuel` units): the bytes, whether
any is poisoned, and the first failure. -/
def State.readBytes (s : State) (c asid vf : Nat) : Nat → Nat → Nat → Except Word (List Byte × Bool) × State
  | 0, _, _ => (.ok ([], false), s)
  | fuel + 1, va, n =>
    if n = 0 then (.ok ([], false), s)
    else
      match s.readPlain c asid vf va with
      | (.error w, t) => (.error w, t)
      | (.ok (x, b, p), t) =>
        let o := va % x.unit
        let k := Nat.min n (x.unit - o)
        match t.readBytes c asid vf fuel (va + k) (n - k) with
        | (.error w, u) => (.error w, u)
        | (.ok (l, q), u) => (.ok ((b.drop o).take k ++ l, p || q), u)

end Sys2Proof.Machine
end

