-- ==== Sys2Proof/Machine/Forms.lean ====
section
/-!
DEFINITION. The form of each encoded instruction: which fields it uses and which values it accepts
(R43 to R52, R94, R100, R105, R106, R109, R113, R115 to R119, R124, R127 to R129, R134, R176 to R184,
R190, R205, R227, R249, R259, R297), and the checks of an encoding in the order of R54.
-/
namespace Sys2Proof.Machine

/-- What the VD field names (R44, R45, R104, R128). -/
inductive DstKind where
  | none | vec | mask | scalar
deriving DecidableEq, Repr

/-- What VA or VB names: `any` is a vector register, a broadcast scalar or a literal. -/
inductive SrcKind where
  | none | vec | mask | any | broadcast
deriving DecidableEq, Repr

/-- The IMM8 values a form defines. -/
inductive ImmKind where
  /-- Only 0. -/
  | zero
  /-- 0 to n. -/
  | upTo (n : Nat)
  /-- A lane, or 255 for the lowest participant (R118). -/
  | laneOrLowest
  /-- The compared element (R106). -/
  | element
  /-- OP and EXC (R119); `exc` says that EXC may be 1. -/
  | chain (exc : Bool)
  /-- DT, with EL where `el` (R115). -/
  | convert (el : Bool)
deriving DecidableEq, Repr

/-- The form of a format V instruction. `rm` is the greatest RM accepted, `ng` the NG bits accepted. -/
structure VForm where
  d : DstKind
  a : SrcKind
  b : SrcKind
  c : Bool
  tys : List Nat
  rm : Nat
  sat : Bool
  ng : Nat
  imm : ImmKind
  km : Bool
deriving DecidableEq, Repr

/-- The forms of format S (R124, R125). -/
inductive SForm where
  | binary | move | loadImm | unary
deriving DecidableEq, Repr

/-- The form of a format B instruction: the fields used, the greatest IMM10, whether SA must be even,
and whether SA names a vector register. -/
structure BForm where
  sa : Bool
  kc : Bool
  jr : Bool
  hint : Bool
  neg : Bool
  imm10 : Nat
  off : Bool
  even : Bool
  vecSa : Bool
deriving DecidableEq, Repr

/-- The register use of a format M instruction. -/
inductive MKind where
  | lanes | uniform | compress | cas | fence | sealing
deriving DecidableEq, Repr

/-- The form of a format M instruction: SZ and SCOPE values accepted (no SZ: the field is unused). -/
structure MForm where
  szs : List Nat
  scopes : List Nat
  kind : MKind
deriving DecidableEq, Repr

/-- The use of a register field of format E. -/
inductive EReg where
  | unused
  | any
  /-- A multiple of n (reason 0x05). -/
  | multiple (n : Nat)
  /-- 0, 16 or 32 (reason 0x07). -/
  | pushBase
  /-- 0, 16 or 32, not holding SA (reason 0x05). -/
  | recvBase
  /-- The first of IMM16 payload registers (reason 0x05). -/
  | payload
  /-- A vector register (reason 0x06). -/
  | vector
  /-- A mask register in the low 3 bits (reason 0x04). -/
  | mask
deriving DecidableEq, Repr

/-- The form of a format E instruction: register uses, greatest CH, whether Q is used, the IMM16
range, and whether KM is accepted. -/
structure EForm where
  sa : EReg
  sb : EReg
  sd : EReg
  ch : Nat
  q : Bool
  immLo : Nat
  immHi : Nat
  km : Bool
deriving DecidableEq, Repr

/-- An instruction's form with its fields. -/
inductive Form where
  | v (form : VForm) (f : FmtV)
  | s (form : SForm) (f : FmtS)
  | b (form : BForm) (f : FmtB)
  | m (form : MForm) (f : FmtM)
  | e (form : EForm) (f : FmtE)
  /-- An engine command or an event: no encoding as an instruction word. -/
  | none
deriving DecidableEq, Repr

/-- The types that a chain operation accepts (R119). -/
def chainTypes (op : Nat) : List Nat :=
  if op ≤ 4 then [0, 1] else if op ≤ 7 then [0] else if op ≤ 10 then [2, 3, 4] else [0, 1, 2, 3, 4]

/-- VREDU and VSCAN (R118, R119): RM and SAT only under FADD. -/
def chainForm (f : FmtV) (exc : Bool) : VForm :=
  let op := bits f.imm8 3 0
  ⟨.vec, .vec, .none, false, chainTypes op, if op = 8 then 3 else 0, op = 8, 0, .chain exc, true⟩

/-- VCVT (R116): the accepted source type for the destination type, and RM and SAT of its row. -/
def vcvtForm (f : FmtV) : VForm :=
  let tys := match bits f.imm8 3 0 with
    | 0 => [2]
    | 1 => [3, 4]
    | 2 => [0]
    | 3 => [1, 4]
    | 4 => [1, 3]
    | _ => []
  ⟨.vec, .vec, .none, false, tys, 4, bits f.imm8 3 0 = 4 && f.ty = 3, 0, .convert false, true⟩

/-- VPACK (R116). -/
def vpackForm (f : FmtV) : VForm :=
  match bits f.imm8 3 0 with
  | 1 => ⟨.vec, .vec, .any, false, [0], 0, true, 0, .convert false, true⟩
  | 3 => ⟨.vec, .vec, .any, false, [2], 4, true, 0, .convert false, true⟩
  | 4 => ⟨.vec, .vec, .any, false, [2], 4, true, 0, .convert false, true⟩
  | _ => ⟨.vec, .vec, .any, false, [], 4, true, 0, .convert false, true⟩

/-- VUNPK (R116). -/
def vunpkForm (f : FmtV) : VForm :=
  let tys := match bits f.imm8 3 0 with
    | 0 => [1]
    | 2 => [3, 4]
    | _ => []
  ⟨.vec, .vec, .none, false, tys, 0, false, 0, .convert true, true⟩

/-- The form of each instruction. -/
def form : Instr → Form
  | .nop f => .e ⟨.unused, .unused, .unused, 0, false, 0, 0, false⟩ f
  | .bkpt f => .e ⟨.unused, .unused, .unused, 0, false, 0, 65535, false⟩ f
  | .trap f => .e ⟨.unused, .unused, .unused, 0, false, 0, 65535, false⟩ f
  | .tret f => .e ⟨.unused, .unused, .unused, 0, false, 0, 0, false⟩ f
  | .yield f => .e ⟨.unused, .unused, .unused, 0, false, 0, 0, false⟩ f
  | .icinv f => .e ⟨.multiple 2, .any, .unused, 0, false, 0, 0, false⟩ f
  | .sread f => .e ⟨.unused, .unused, .any, 0, false, 0, 65535, false⟩ f
  | .swrite f => .e ⟨.any, .unused, .unused, 0, false, 0, 65535, false⟩ f
  | .bra f => .b ⟨false, false, false, false, false, 0, true, false, false⟩ f
  | .bsc f => .b ⟨true, false, false, false, true, 0, true, false, false⟩ f
  | .bsz f => .b ⟨false, true, false, false, true, 0, true, false, false⟩ f
  | .bdiv f => .b ⟨false, true, false, true, true, 0, true, false, false⟩ f
  | .bdivx f => .b ⟨true, false, false, false, false, 0, true, false, true⟩ f
  | .call f => .b ⟨true, false, false, false, false, 0, true, true, false⟩ f
  | .ret f => .b ⟨true, false, false, false, false, 0, false, true, false⟩ f
  | .jmpi f => .b ⟨true, false, false, false, false, 0, false, true, false⟩ f
  | .rjset f => .b ⟨false, false, true, false, false, 0, false, false, false⟩ f
  | .rjoin f => .b ⟨false, false, true, false, false, 0, false, false, false⟩ f
  | .rjpeek f => .b ⟨true, false, true, false, false, 2, false, false, false⟩ f
  | .bar f => .b ⟨false, false, false, false, false, 0, false, false, false⟩ f
  | .exit f => .b ⟨false, false, false, false, false, 0, false, false, false⟩ f
  | .sadd f => .s .binary f
  | .ssub f => .s .binary f
  | .smul f => .s .binary f
  | .smulh f => .s .binary f
  | .smulhu f => .s .binary f
  | .sand f => .s .binary f
  | .sor f => .s .binary f
  | .sxor f => .s .binary f
  | .sandn f => .s .binary f
  | .sshl f => .s .binary f
  | .sshr f => .s .binary f
  | .ssar f => .s .binary f
  | .srot f => .s .binary f
  | .smin f => .s .binary f
  | .smax f => .s .binary f
  | .sminu f => .s .binary f
  | .smaxu f => .s .binary f
  | .smov f => .s .move f
  | .sliShort f => .s .loadImm f
  | .sliLong f => .s .loadImm f
  | .slih f => .s .binary f
  | .sceq f => .s .binary f
  | .scne f => .s .binary f
  | .sclt f => .s .binary f
  | .scle f => .s .binary f
  | .scltu f => .s .binary f
  | .scleu f => .s .binary f
  | .ssel f => .s .binary f
  | .spopc f => .s .unary f
  | .sclz f => .s .unary f
  | .sffs f => .s .unary f
  | .kand f => .v ⟨.mask, .mask, .mask, false, [0], 0, false, 0, .zero, true⟩ f
  | .kor f => .v ⟨.mask, .mask, .mask, false, [0], 0, false, 0, .zero, true⟩ f
  | .kxor f => .v ⟨.mask, .mask, .mask, false, [0], 0, false, 0, .zero, true⟩ f
  | .kandn f => .v ⟨.mask, .mask, .mask, false, [0], 0, false, 0, .zero, true⟩ f
  | .knot f => .v ⟨.mask, .mask, .none, false, [0], 0, false, 0, .zero, true⟩ f
  | .kmov f => .v ⟨.mask, .mask, .none, false, [0], 0, false, 0, .zero, true⟩ f
  | .kfroms f => .v ⟨.mask, .none, .broadcast, false, [0], 0, false, 0, .upTo 2, true⟩ f
  | .ktos f => .v ⟨.scalar, .mask, .none, false, [0], 0, false, 0, .upTo 2, false⟩ f
  | .kpopc f => .v ⟨.scalar, .mask, .none, false, [0], 0, false, 0, .zero, true⟩ f
  | .kfirst f => .v ⟨.scalar, .mask, .none, false, [0], 0, false, 0, .zero, true⟩ f
  | .vadd f => .v ⟨.vec, .vec, .any, false, [0, 1], 0, false, 0, .zero, true⟩ f
  | .vsub f => .v ⟨.vec, .vec, .any, false, [0, 1], 0, false, 0, .zero, true⟩ f
  | .vmul f => .v ⟨.vec, .vec, .any, false, [0, 1], 0, false, 0, .zero, true⟩ f
  | .vmulh f => .v ⟨.vec, .vec, .any, false, [0, 1], 0, false, 0, .zero, true⟩ f
  | .vmulhu f => .v ⟨.vec, .vec, .any, false, [0, 1], 0, false, 0, .zero, true⟩ f
  | .vmad f => .v ⟨.vec, .vec, .any, true, [0, 1], 0, false, 0, .zero, true⟩ f
  | .vmin f => .v ⟨.vec, .vec, .any, false, [0, 1], 0, false, 0, .zero, true⟩ f
  | .vmax f => .v ⟨.vec, .vec, .any, false, [0, 1], 0, false, 0, .zero, true⟩ f
  | .vminu f => .v ⟨.vec, .vec, .any, false, [0, 1], 0, false, 0, .zero, true⟩ f
  | .vmaxu f => .v ⟨.vec, .vec, .any, false, [0, 1], 0, false, 0, .zero, true⟩ f
  | .vabs f => .v ⟨.vec, .vec, .none, false, [0, 1], 0, false, 0, .zero, true⟩ f
  | .vneg f => .v ⟨.vec, .vec, .none, false, [0, 1], 0, false, 0, .zero, true⟩ f
  | .vsadd f => .v ⟨.vec, .vec, .any, false, [0, 1], 0, false, 0, .zero, true⟩ f
  | .vssub f => .v ⟨.vec, .vec, .any, false, [0, 1], 0, false, 0, .zero, true⟩ f
  | .vsaddu f => .v ⟨.vec, .vec, .any, false, [0, 1], 0, false, 0, .zero, true⟩ f
  | .vssubu f => .v ⟨.vec, .vec, .any, false, [0, 1], 0, false, 0, .zero, true⟩ f
  | .vand f => .v ⟨.vec, .vec, .any, false, [0], 0, false, 0, .zero, true⟩ f
  | .vor f => .v ⟨.vec, .vec, .any, false, [0], 0, false, 0, .zero, true⟩ f
  | .vxor f => .v ⟨.vec, .vec, .any, false, [0], 0, false, 0, .zero, true⟩ f
  | .vandn f => .v ⟨.vec, .vec, .any, false, [0], 0, false, 0, .zero, true⟩ f
  | .vnot f => .v ⟨.vec, .vec, .none, false, [0], 0, false, 0, .zero, true⟩ f
  | .vshl f => .v ⟨.vec, .vec, .any, false, [0, 1], 0, false, 0, .zero, true⟩ f
  | .vshr f => .v ⟨.vec, .vec, .any, false, [0, 1], 0, false, 0, .zero, true⟩ f
  | .vsar f => .v ⟨.vec, .vec, .any, false, [0, 1], 0, false, 0, .zero, true⟩ f
  | .vrot f => .v ⟨.vec, .vec, .any, false, [0, 1], 0, false, 0, .zero, true⟩ f
  | .vclz f => .v ⟨.vec, .vec, .none, false, [0, 1], 0, false, 0, .zero, true⟩ f
  | .vpopc f => .v ⟨.vec, .vec, .none, false, [0, 1], 0, false, 0, .zero, true⟩ f
  | .vbrev f => .v ⟨.vec, .vec, .none, false, [0], 0, false, 0, .zero, true⟩ f
  | .vbfx f => .v ⟨.vec, .vec, .any, false, [0], 0, false, 0, .upTo 1, true⟩ f
  | .vbfi f => .v ⟨.vec, .vec, .any, true, [0], 0, false, 0, .zero, true⟩ f
  | .vsel f => .v ⟨.vec, .vec, .any, false, [0], 0, false, 0, .upTo 7, true⟩ f
  | .vmov f => .v ⟨.vec, .none, .any, false, [0], 0, false, 0, .zero, true⟩ f
  | .vmovs f => .v ⟨.scalar, .vec, .none, false, [0], 0, false, 0, .upTo 95, true⟩ f
  | .vceq f => .v ⟨.mask, .vec, .any, false, [0, 1], 0, false, 0, .element, true⟩ f
  | .vcne f => .v ⟨.mask, .vec, .any, false, [0, 1], 0, false, 0, .element, true⟩ f
  | .vclt f => .v ⟨.mask, .vec, .any, false, [0, 1], 0, false, 0, .element, true⟩ f
  | .vcle f => .v ⟨.mask, .vec, .any, false, [0, 1], 0, false, 0, .element, true⟩ f
  | .vcltu f => .v ⟨.mask, .vec, .any, false, [0, 1], 0, false, 0, .element, true⟩ f
  | .vcleu f => .v ⟨.mask, .vec, .any, false, [0, 1], 0, false, 0, .element, true⟩ f
  | .vfceq f => .v ⟨.mask, .vec, .any, false, [2, 3, 4], 0, false, 0, .element, true⟩ f
  | .vfclt f => .v ⟨.mask, .vec, .any, false, [2, 3, 4], 0, false, 0, .element, true⟩ f
  | .vfcle f => .v ⟨.mask, .vec, .any, false, [2, 3, 4], 0, false, 0, .element, true⟩ f
  | .vfcun f => .v ⟨.mask, .vec, .any, false, [2, 3, 4], 0, false, 0, .element, true⟩ f
  | .vfclass f => .v ⟨.mask, .vec, .any, false, [2, 3, 4], 0, false, 0, .element, true⟩ f
  | .vfadd f => .v ⟨.vec, .vec, .any, false, [2, 3, 4], 4, true, 1, .zero, true⟩ f
  | .vfsub f => .v ⟨.vec, .vec, .any, false, [2, 3, 4], 4, true, 1, .zero, true⟩ f
  | .vfmul f => .v ⟨.vec, .vec, .any, false, [2, 3, 4], 4, true, 1, .zero, true⟩ f
  | .vfma f => .v ⟨.vec, .vec, .any, true, [2, 3, 4], 3, true, 3, .zero, true⟩ f
  | .vfms f => .v ⟨.vec, .vec, .any, true, [2, 3, 4], 3, true, 3, .zero, true⟩ f
  | .vfnma f => .v ⟨.vec, .vec, .any, true, [2, 3, 4], 3, true, 3, .zero, true⟩ f
  | .vfnms f => .v ⟨.vec, .vec, .any, true, [2, 3, 4], 3, true, 3, .zero, true⟩ f
  | .vfmin f => .v ⟨.vec, .vec, .any, false, [2, 3, 4], 0, false, 0, .zero, true⟩ f
  | .vfmax f => .v ⟨.vec, .vec, .any, false, [2, 3, 4], 0, false, 0, .zero, true⟩ f
  | .vfabs f => .v ⟨.vec, .vec, .none, false, [2, 3, 4], 0, false, 0, .zero, true⟩ f
  | .vfneg f => .v ⟨.vec, .vec, .none, false, [2, 3, 4], 0, false, 0, .zero, true⟩ f
  | .vfcpys f => .v ⟨.vec, .vec, .any, false, [2, 3, 4], 0, false, 0, .zero, true⟩ f
  | .vfrint f => .v ⟨.vec, .vec, .none, false, [2, 3, 4], 4, false, 0, .zero, true⟩ f
  | .vrcp f => .v ⟨.vec, .vec, .none, false, [2, 3, 4], 0, true, 0, .zero, true⟩ f
  | .vrsq f => .v ⟨.vec, .vec, .none, false, [2, 3, 4], 0, true, 0, .zero, true⟩ f
  | .vsqrt f => .v ⟨.vec, .vec, .none, false, [2, 3, 4], 4, true, 0, .zero, true⟩ f
  | .vdiv f => .v ⟨.vec, .vec, .any, false, [2, 3, 4], 4, true, 0, .zero, true⟩ f
  | .vexp2 f => .v ⟨.vec, .vec, .none, false, [2, 3, 4], 0, true, 0, .zero, true⟩ f
  | .vlog2 f => .v ⟨.vec, .vec, .none, false, [2, 3, 4], 0, true, 0, .zero, true⟩ f
  | .vsin f => .v ⟨.vec, .vec, .none, false, [2, 3, 4], 0, true, 0, .zero, true⟩ f
  | .vcos f => .v ⟨.vec, .vec, .none, false, [2, 3, 4], 0, true, 0, .zero, true⟩ f
  | .vtanh f => .v ⟨.vec, .vec, .none, false, [2, 3, 4], 0, true, 0, .zero, true⟩ f
  | .vsigm f => .v ⟨.vec, .vec, .none, false, [2, 3, 4], 0, true, 0, .zero, true⟩ f
  | .vcvt f => .v (vcvtForm f) f
  | .vpack f => .v (vpackForm f) f
  | .vunpk f => .v (vunpkForm f) f
  | .qswapx f => .v ⟨.vec, .vec, .none, false, [0], 0, false, 0, .zero, true⟩ f
  | .qswapy f => .v ⟨.vec, .vec, .none, false, [0], 0, false, 0, .zero, true⟩ f
  | .qswapd f => .v ⟨.vec, .vec, .none, false, [0], 0, false, 0, .zero, true⟩ f
  | .qbcast f => .v ⟨.vec, .vec, .none, false, [0], 0, false, 0, .upTo 3, true⟩ f
  | .vshfl f => .v ⟨.vec, .vec, .any, false, [0], 0, false, 0, .zero, true⟩ f
  | .vshflup f => .v ⟨.vec, .vec, .none, false, [0], 0, false, 0, .upTo 95, true⟩ f
  | .vshfldn f => .v ⟨.vec, .vec, .none, false, [0], 0, false, 0, .upTo 95, true⟩ f
  | .vbcast f => .v ⟨.vec, .vec, .none, false, [0], 0, false, 0, .laneOrLowest, true⟩ f
  | .vredu f => .v (chainForm f false) f
  | .vscan f => .v (chainForm f true) f
  | .vballot f => .v ⟨.vec, .vec, .none, false, [0], 0, false, 0, .upTo 2, true⟩ f
  | .vcomp f => .v ⟨.vec, .vec, .none, false, [0], 0, false, 0, .upTo 7, true⟩ f
  | .lds f => .m ⟨[0, 1, 2, 3, 4], [0, 3], .lanes⟩ f
  | .sts f => .m ⟨[0, 1, 2, 3, 4], [0, 3], .lanes⟩ f
  | .ldu f => .m ⟨[0, 1, 2, 3, 4], [0, 3], .uniform⟩ f
  | .stu f => .m ⟨[0, 1, 2, 3, 4], [0, 3], .uniform⟩ f
  | .ldres f => .m ⟨[2, 3], [0], .lanes⟩ f
  | .stcnd f => .m ⟨[2, 3], [0], .lanes⟩ f
  | .stcmp f => .m ⟨[2], [0], .compress⟩ f
  | .aadd f => .m ⟨[2, 3], [0, 3], .lanes⟩ f
  | .asub f => .m ⟨[2, 3], [0, 3], .lanes⟩ f
  | .amin f => .m ⟨[2, 3], [0, 3], .lanes⟩ f
  | .amax f => .m ⟨[2, 3], [0, 3], .lanes⟩ f
  | .aminu f => .m ⟨[2, 3], [0, 3], .lanes⟩ f
  | .amaxu f => .m ⟨[2, 3], [0, 3], .lanes⟩ f
  | .aand f => .m ⟨[2, 3], [0, 3], .lanes⟩ f
  | .aor f => .m ⟨[2, 3], [0, 3], .lanes⟩ f
  | .axor f => .m ⟨[2, 3], [0, 3], .lanes⟩ f
  | .axchg f => .m ⟨[2, 3], [0, 3], .lanes⟩ f
  | .acas f => .m ⟨[2, 3], [0, 3], .cas⟩ f
  | .afadd f => .m ⟨[2], [0, 3], .lanes⟩ f
  | .fence f => .m ⟨[], [1, 2, 3, 4, 5, 6], .fence⟩ f
  | .fseal f => .m ⟨[], [2, 4, 5], .sealing⟩ f
  | .funseal f => .m ⟨[], [2, 4, 5], .sealing⟩ f
  | .push f => .e ⟨.pushBase, .unused, .any, 0, true, 0, 0, false⟩ f
  | .bclose f => .e ⟨.unused, .unused, .any, 0, false, 0, 0, false⟩ f
  | .bwait f => .e ⟨.any, .unused, .unused, 0, false, 0, 1, false⟩ f
  | .bstat f => .e ⟨.any, .unused, .any, 0, false, 0, 0, false⟩ f
  | .waitc f => .e ⟨.unused, .unused, .unused, 0, false, 0, 65535, false⟩ f
  | .resid f => .e ⟨.any, .unused, .mask, 0, false, 1, 65535, false⟩ f
  | .send f => .e ⟨.payload, .any, .unused, 63, false, 1, 16, false⟩ f
  | .sendv f => .e ⟨.vector, .any, .unused, 63, false, 0, 0, true⟩ f
  | .recv f => .e ⟨.any, .unused, .recvBase, 63, false, 0, 0, false⟩ f
  | .recvt f => .e ⟨.any, .unused, .recvBase, 63, false, 0, 0, false⟩ f
  | .recvv f => .e ⟨.any, .unused, .vector, 63, false, 0, 0, true⟩ f
  | .amsg f => .e ⟨.payload, .multiple 2, .unused, 63, false, 1, 16, false⟩ f
  | .spawn f => .e ⟨.multiple 4, .unused, .any, 0, false, 0, 0, false⟩ f
  | .commit f => .e ⟨.unused, .unused, .unused, 0, false, 0, 0, false⟩ f
  | .tjoin f => .e ⟨.any, .unused, .any, 0, false, 0, 0, false⟩ f
  | .tstat f => .e ⟨.any, .unused, .any, 0, false, 0, 0, false⟩ f
  | .hgive f => .e ⟨.any, .unused, .unused, 7, false, 0, 3, false⟩ f
  | .hgiveMake f => .e ⟨.any, .any, .any, 7, false, 256, 259, false⟩ f
  | .htake f => .e ⟨.unused, .unused, .any, 7, false, 0, 0, false⟩ f
  | .htaket f => .e ⟨.unused, .unused, .any, 7, false, 0, 0, false⟩ f
  | .hstat f => .e ⟨.any, .unused, .any, 0, false, 0, 0, false⟩ f
  | .hdrop f => .e ⟨.any, .unused, .unused, 0, false, 0, 0, false⟩ f
  | .mloadw f => .e ⟨.any, .any, .unused, 0, false, 0, 0, false⟩ f
  | .mswap f => .e ⟨.unused, .unused, .unused, 0, false, 0, 0, false⟩ f
  | .mloop f => .e ⟨.multiple 4, .multiple 4, .unused, 0, false, 0, 63, false⟩ f
  | .mdrain f => .e ⟨.multiple 4, .any, .unused, 0, false, 0, 15, false⟩ f
  | .mzero f => .e ⟨.unused, .unused, .unused, 0, false, 0, 3, false⟩ f
  | .mstat f => .e ⟨.unused, .unused, .any, 0, false, 0, 3, false⟩ f
  | .cvjoin f => .e ⟨.multiple 2, .any, .any, 0, false, 0, 0, false⟩ f
  | .cvleave f => .e ⟨.unused, .unused, .any, 0, false, 0, 0, false⟩ f
  | .copy _ _ => .none
  | .copy2d _ _ => .none
  | .fill _ _ => .none
  | .gather _ _ => .none
  | .scatter _ _ => .none
  | .atom _ _ => .none
  | .reduce _ _ => .none
  | .allred _ _ => .none
  | .bcast _ _ => .none
  | .pagereq _ _ => .none
  | .tlbinv _ _ => .none
  | .rcopy _ _ => .none
  | .commandCompletion _ _ => .none
  | .storePerform _ _ => .none
  | .rejoinRelease _ _ _ => .none
  | .barrierRelease _ _ => .none
  | .fairnessDue _ _ _ => .none
  | .paddockSwap _ _ => .none
  | .reservationGraceEnd _ _ _ => .none
  | .softErrorRollback _ _ => .none
  | .matrixTrapDelivery _ _ => .none
  | .taskPlacement _ _ => .none
  | .taskSteal _ _ => .none
  | .stealAcknowledgement _ _ _ => .none
  | .leaseExpiry _ _ => .none
  | .launchTake _ _ => .none
  | .gangPlacement _ => .none
  | .launchEnd _ => .none
  | .messageArrival _ => .none
  | .receiveFill _ _ _ => .none
  | .nackArrival _ => .none
  | .amsgArrival _ => .none
  | .handlerStart _ => .none
  | .convoyAnswer _ => .none
  | .boundUpdate _ _ _ => .none
  | .unhitchTimeout _ _ => .none
  | .foldReadRequest _ _ => .none
  | .dramDataArrival _ _ _ => .none
  | .stopWrite _ _ => .none
  | .stopAtomic _ _ => .none
  | .unitTranslation _ _ => .none
  | .pageWalkComplete _ _ => .none
  | .globalSealRequest _ _ => .none
  | .globalUnsealRequest _ _ => .none
  | .replicaCopy _ _ _ => .none
  | .outputPortGrant _ _ _ => .none
  | .headPromotion _ _ _ _ => .none
  | .mesharbWrite _ _ => .none
  | .mesharbApply _ => .none
  | .slotcmd _ _ => .none
  | .slotTableReplace _ => .none
  | .passGrant _ => .none
  | .loopPriorityAging _ _ => .none
  | .matrixEntryComplete _ _ => .none
  | .drainPerform _ _ => .none
  | .zeroPerform _ _ => .none
  | .planeLoad _ _ => .none
  | .planeSwap _ _ => .none
  | .operandFault _ _ => .none
  | .spareRowMismatch _ _ _ _ => .none
  | .accumulatorError _ _ _ => .none
  | .engineService _ _ => .none
  | .qwpDoorbell _ _ _ => .none
  | .registerWrite _ _ _ _ => .none
  | .functionLevelReset _ => .none
  | .ckptSave _ => .none
  | .ckptRestore _ => .none
  | .quiesceTimeout => .none
  | .checkpointDone => .none
  | .resume _ => .none
  | .replan _ => .none
  | .periodicReplan _ _ => .none
  | .containClear _ _ => .none
  | .fixlat _ _ => .none
  | .clrcnt _ _ => .none
  | .linkRetrain _ _ => .none
  | .ctxSave _ => .none
  | .ctxRestore _ => .none
  | .ctxDiscard _ => .none
  | .dbgClaim _ _ => .none
  | .dbgRelease _ _ => .none
  | .dbgStepOne _ _ => .none
  | .dbgStepAll _ _ => .none
  | .dbgMove _ _ => .none
  | .boot => .none
  | .spdmGetCertificate => .none
  | .spdmGetMeasurements _ => .none
  | .corePowerGate _ => .none
  | .instructionFetch _ _ _ => .none
  | .fetchReturn _ _ => .none
  | .hostReadCompletion _ _ => .none
  | .linkFrameArrival _ _ => .none
  | .linkDown _ => .none
  | .keyRenewal _ => .none
  | .fabricForward _ => .none
  | .contributionArrival _ => .none
  | .contributorTimeout _ _ => .none
  | .combinerTimeout _ => .none
  | .rcopyUnitArrival _ => .none
  | .illegalWord _ => .none
  | .resultArrival _ => .none
  | .taskCompletionReport _ => .none
  | .hostWriteCompletion _ => .none
  | .linkTrained _ _ _ => .none
  | .ideKm _ _ => .none
  | .powerStateChange _ => .none
  | .modulePowerLimit _ => .none
  | .ckptRestoreDone => .none
  | .functionLevelResetDone _ => .none

/-- The major and minor opcode of each instruction (R53). -/
def opcode : Instr → Option (Nat × Nat)
  | .nop _ => some (1, 0)
  | .bkpt _ => some (1, 1)
  | .trap _ => some (1, 2)
  | .tret _ => some (1, 3)
  | .yield _ => some (1, 4)
  | .icinv _ => some (1, 5)
  | .sread _ => some (1, 6)
  | .swrite _ => some (1, 7)
  | .bra _ => some (2, 0)
  | .bsc _ => some (2, 1)
  | .bsz _ => some (2, 2)
  | .bdiv _ => some (2, 3)
  | .bdivx _ => some (2, 4)
  | .call _ => some (2, 5)
  | .ret _ => some (2, 6)
  | .jmpi _ => some (2, 7)
  | .rjset _ => some (2, 8)
  | .rjoin _ => some (2, 9)
  | .rjpeek _ => some (2, 10)
  | .bar _ => some (2, 11)
  | .exit _ => some (2, 12)
  | .sadd _ => some (4, 0)
  | .ssub _ => some (4, 1)
  | .smul _ => some (4, 2)
  | .smulh _ => some (4, 3)
  | .smulhu _ => some (4, 4)
  | .sand _ => some (4, 5)
  | .sor _ => some (4, 6)
  | .sxor _ => some (4, 7)
  | .sandn _ => some (4, 8)
  | .sshl _ => some (4, 9)
  | .sshr _ => some (4, 10)
  | .ssar _ => some (4, 11)
  | .srot _ => some (4, 12)
  | .smin _ => some (4, 13)
  | .smax _ => some (4, 14)
  | .sminu _ => some (4, 15)
  | .smaxu _ => some (4, 16)
  | .smov _ => some (4, 17)
  | .sliShort _ => some (4, 18)
  | .sliLong _ => some (4, 18)
  | .slih _ => some (4, 19)
  | .sceq _ => some (4, 20)
  | .scne _ => some (4, 21)
  | .sclt _ => some (4, 22)
  | .scle _ => some (4, 23)
  | .scltu _ => some (4, 24)
  | .scleu _ => some (4, 25)
  | .ssel _ => some (4, 26)
  | .spopc _ => some (4, 27)
  | .sclz _ => some (4, 28)
  | .sffs _ => some (4, 29)
  | .kand _ => some (5, 0)
  | .kor _ => some (5, 1)
  | .kxor _ => some (5, 2)
  | .kandn _ => some (5, 3)
  | .knot _ => some (5, 4)
  | .kmov _ => some (5, 5)
  | .kfroms _ => some (5, 6)
  | .ktos _ => some (5, 7)
  | .kpopc _ => some (5, 8)
  | .kfirst _ => some (5, 9)
  | .vadd _ => some (8, 0)
  | .vsub _ => some (8, 1)
  | .vmul _ => some (8, 2)
  | .vmulh _ => some (8, 3)
  | .vmulhu _ => some (8, 4)
  | .vmad _ => some (8, 5)
  | .vmin _ => some (8, 6)
  | .vmax _ => some (8, 7)
  | .vminu _ => some (8, 8)
  | .vmaxu _ => some (8, 9)
  | .vabs _ => some (8, 10)
  | .vneg _ => some (8, 11)
  | .vsadd _ => some (8, 12)
  | .vssub _ => some (8, 13)
  | .vsaddu _ => some (8, 14)
  | .vssubu _ => some (8, 15)
  | .vand _ => some (8, 16)
  | .vor _ => some (8, 17)
  | .vxor _ => some (8, 18)
  | .vandn _ => some (8, 19)
  | .vnot _ => some (8, 20)
  | .vshl _ => some (8, 21)
  | .vshr _ => some (8, 22)
  | .vsar _ => some (8, 23)
  | .vrot _ => some (8, 24)
  | .vclz _ => some (8, 25)
  | .vpopc _ => some (8, 26)
  | .vbrev _ => some (8, 27)
  | .vbfx _ => some (8, 28)
  | .vbfi _ => some (8, 29)
  | .vsel _ => some (8, 30)
  | .vmov _ => some (8, 31)
  | .vmovs _ => some (8, 32)
  | .vceq _ => some (9, 0)
  | .vcne _ => some (9, 1)
  | .vclt _ => some (9, 2)
  | .vcle _ => some (9, 3)
  | .vcltu _ => some (9, 4)
  | .vcleu _ => some (9, 5)
  | .vfceq _ => some (9, 6)
  | .vfclt _ => some (9, 7)
  | .vfcle _ => some (9, 8)
  | .vfcun _ => some (9, 9)
  | .vfclass _ => some (9, 10)
  | .vfadd _ => some (10, 0)
  | .vfsub _ => some (10, 1)
  | .vfmul _ => some (10, 2)
  | .vfma _ => some (10, 3)
  | .vfms _ => some (10, 4)
  | .vfnma _ => some (10, 5)
  | .vfnms _ => some (10, 6)
  | .vfmin _ => some (10, 7)
  | .vfmax _ => some (10, 8)
  | .vfabs _ => some (10, 9)
  | .vfneg _ => some (10, 10)
  | .vfcpys _ => some (10, 11)
  | .vfrint _ => some (10, 12)
  | .vrcp _ => some (11, 0)
  | .vrsq _ => some (11, 1)
  | .vsqrt _ => some (11, 2)
  | .vdiv _ => some (11, 3)
  | .vexp2 _ => some (11, 4)
  | .vlog2 _ => some (11, 5)
  | .vsin _ => some (11, 6)
  | .vcos _ => some (11, 7)
  | .vtanh _ => some (11, 8)
  | .vsigm _ => some (11, 9)
  | .vcvt _ => some (12, 0)
  | .vpack _ => some (12, 1)
  | .vunpk _ => some (12, 2)
  | .qswapx _ => some (13, 0)
  | .qswapy _ => some (13, 1)
  | .qswapd _ => some (13, 2)
  | .qbcast _ => some (13, 3)
  | .vshfl _ => some (13, 4)
  | .vshflup _ => some (13, 5)
  | .vshfldn _ => some (13, 6)
  | .vbcast _ => some (13, 7)
  | .vredu _ => some (13, 8)
  | .vscan _ => some (13, 9)
  | .vballot _ => some (13, 10)
  | .vcomp _ => some (13, 11)
  | .lds _ => some (16, 0)
  | .sts _ => some (16, 1)
  | .ldu _ => some (16, 2)
  | .stu _ => some (16, 3)
  | .ldres _ => some (16, 4)
  | .stcnd _ => some (16, 5)
  | .stcmp _ => some (16, 6)
  | .aadd _ => some (17, 0)
  | .asub _ => some (17, 1)
  | .amin _ => some (17, 2)
  | .amax _ => some (17, 3)
  | .aminu _ => some (17, 4)
  | .amaxu _ => some (17, 5)
  | .aand _ => some (17, 6)
  | .aor _ => some (17, 7)
  | .axor _ => some (17, 8)
  | .axchg _ => some (17, 9)
  | .acas _ => some (17, 10)
  | .afadd _ => some (17, 11)
  | .fence _ => some (18, 0)
  | .fseal _ => some (18, 1)
  | .funseal _ => some (18, 2)
  | .push _ => some (20, 0)
  | .bclose _ => some (20, 1)
  | .bwait _ => some (20, 2)
  | .bstat _ => some (20, 3)
  | .waitc _ => some (20, 4)
  | .resid _ => some (20, 5)
  | .send _ => some (21, 0)
  | .sendv _ => some (21, 1)
  | .recv _ => some (21, 2)
  | .recvt _ => some (21, 3)
  | .recvv _ => some (21, 4)
  | .amsg _ => some (21, 5)
  | .spawn _ => some (22, 0)
  | .commit _ => some (22, 1)
  | .tjoin _ => some (22, 2)
  | .tstat _ => some (22, 3)
  | .hgive _ => some (24, 0)
  | .hgiveMake _ => some (24, 0)
  | .htake _ => some (24, 1)
  | .htaket _ => some (24, 2)
  | .hstat _ => some (24, 3)
  | .hdrop _ => some (24, 4)
  | .mloadw _ => some (25, 0)
  | .mswap _ => some (25, 1)
  | .mloop _ => some (25, 2)
  | .mdrain _ => some (25, 3)
  | .mzero _ => some (25, 4)
  | .mstat _ => some (25, 5)
  | .cvjoin _ => some (26, 0)
  | .cvleave _ => some (26, 1)
  | .copy _ _ => none
  | .copy2d _ _ => none
  | .fill _ _ => none
  | .gather _ _ => none
  | .scatter _ _ => none
  | .atom _ _ => none
  | .reduce _ _ => none
  | .allred _ _ => none
  | .bcast _ _ => none
  | .pagereq _ _ => none
  | .tlbinv _ _ => none
  | .rcopy _ _ => none
  | .commandCompletion _ _ => none
  | .storePerform _ _ => none
  | .rejoinRelease _ _ _ => none
  | .barrierRelease _ _ => none
  | .fairnessDue _ _ _ => none
  | .paddockSwap _ _ => none
  | .reservationGraceEnd _ _ _ => none
  | .softErrorRollback _ _ => none
  | .matrixTrapDelivery _ _ => none
  | .taskPlacement _ _ => none
  | .taskSteal _ _ => none
  | .stealAcknowledgement _ _ _ => none
  | .leaseExpiry _ _ => none
  | .launchTake _ _ => none
  | .gangPlacement _ => none
  | .launchEnd _ => none
  | .messageArrival _ => none
  | .receiveFill _ _ _ => none
  | .nackArrival _ => none
  | .amsgArrival _ => none
  | .handlerStart _ => none
  | .convoyAnswer _ => none
  | .boundUpdate _ _ _ => none
  | .unhitchTimeout _ _ => none
  | .foldReadRequest _ _ => none
  | .dramDataArrival _ _ _ => none
  | .stopWrite _ _ => none
  | .stopAtomic _ _ => none
  | .unitTranslation _ _ => none
  | .pageWalkComplete _ _ => none
  | .globalSealRequest _ _ => none
  | .globalUnsealRequest _ _ => none
  | .replicaCopy _ _ _ => none
  | .outputPortGrant _ _ _ => none
  | .headPromotion _ _ _ _ => none
  | .mesharbWrite _ _ => none
  | .mesharbApply _ => none
  | .slotcmd _ _ => none
  | .slotTableReplace _ => none
  | .passGrant _ => none
  | .loopPriorityAging _ _ => none
  | .matrixEntryComplete _ _ => none
  | .drainPerform _ _ => none
  | .zeroPerform _ _ => none
  | .planeLoad _ _ => none
  | .planeSwap _ _ => none
  | .operandFault _ _ => none
  | .spareRowMismatch _ _ _ _ => none
  | .accumulatorError _ _ _ => none
  | .engineService _ _ => none
  | .qwpDoorbell _ _ _ => none
  | .registerWrite _ _ _ _ => none
  | .functionLevelReset _ => none
  | .ckptSave _ => none
  | .ckptRestore _ => none
  | .quiesceTimeout => none
  | .checkpointDone => none
  | .resume _ => none
  | .replan _ => none
  | .periodicReplan _ _ => none
  | .containClear _ _ => none
  | .fixlat _ _ => none
  | .clrcnt _ _ => none
  | .linkRetrain _ _ => none
  | .ctxSave _ => none
  | .ctxRestore _ => none
  | .ctxDiscard _ => none
  | .dbgClaim _ _ => none
  | .dbgRelease _ _ => none
  | .dbgStepOne _ _ => none
  | .dbgStepAll _ _ => none
  | .dbgMove _ _ => none
  | .boot => none
  | .spdmGetCertificate => none
  | .spdmGetMeasurements _ => none
  | .corePowerGate _ => none
  | .instructionFetch _ _ _ => none
  | .fetchReturn _ _ => none
  | .hostReadCompletion _ _ => none
  | .linkFrameArrival _ _ => none
  | .linkDown _ => none
  | .keyRenewal _ => none
  | .fabricForward _ => none
  | .contributionArrival _ => none
  | .contributorTimeout _ _ => none
  | .combinerTimeout _ => none
  | .rcopyUnitArrival _ => none
  | .illegalWord _ => none
  | .resultArrival _ => none
  | .taskCompletionReport _ => none
  | .hostWriteCompletion _ => none
  | .linkTrained _ _ _ => none
  | .ideKm _ _ => none
  | .powerStateChange _ => none
  | .modulePowerLimit _ => none
  | .ckptRestoreDone => none
  | .functionLevelResetDone _ => none

/-- The first failing check, or none. -/
def firstOf : List (Bool × Nat) → Option Nat
  | [] => none
  | (bad, r) :: t => if bad then some r else firstOf t

/-- IMM8 is defined by the form. -/
def immOk (k : ImmKind) (f : FmtV) : Bool :=
  let n := f.imm8.toNat
  match k with
  | .zero => n = 0
  | .upTo m => n ≤ m
  | .laneOrLowest => n ≤ 95 || n = 255
  | .element => n = 0 || (n = 1 && !(f.ty = 0 || f.ty = 2))
  | .chain exc => n < 32 && bits f.imm8 3 0 ≤ 10 && (exc || n < 16)
  | .convert el => n < 32 && (el || n < 16)

/-- Operand B is a broadcast or literal. -/
def usesBsc (f : FmtV) : Bool := f.bsc = 1

/-- The form reads operand C: its own c, or the random word of RS (R94). -/
def readsC (F : VForm) (f : FmtV) : Bool := F.c || f.rm = 4

/-- LX is accepted and every literal half that replaces nothing is 0 (R46). -/
def vLxBad (f : FmtV) : Bool :=
  f.lx = 1 && ((f.bsc = 0 && f.csc = 0) || (f.bsc = 0 && bits f.lit 31 0 ≠ 0) || (f.csc = 0 && bits f.lit 63 32 ≠ 0))

/-- A TY, RM, SAT or NG value that the form does not accept; a nonzero one of a MSK word is such a value (R54,
R127; log entry 72). -/
def vTypeBad (F : VForm) (f : FmtV) : Bool :=
  !(F.tys.contains f.ty.toNat) || F.rm < f.rm.toNat || (f.sat = 1 && !F.sat) || (f.ng.toNat &&& F.ng) != f.ng.toNat

/-- VD is within the file that it names. -/
def vDstBad (F : VForm) (f : FmtV) : Bool :=
  match F.d with
  | .none => f.vd ≠ 0
  | .vec => false
  | .mask => 8 ≤ f.vd.toNat
  | .scalar => 64 ≤ f.vd.toNat

/-- VA is unused and nonzero, or beyond the mask file. -/
def vSrcABad (F : VForm) (f : FmtV) : Bool :=
  match F.a with
  | .none => f.va ≠ 0
  | .mask => 8 ≤ f.va.toNat
  | _ => false

/-- VB and BSC are not as the form and LX allow (R45, R46, R93, R127). -/
def vSrcBBad (F : VForm) (f : FmtV) : Bool :=
  match F.b with
  | .none => f.vb ≠ 0 || f.bsc ≠ 0
  | .mask => 8 ≤ f.vb.toNat || f.bsc ≠ 0
  | .broadcast => f.bsc = 0 || (if f.lx = 1 then f.vb ≠ 0 else 64 ≤ f.vb.toNat)
  | _ => f.bsc = 1 && (if f.lx = 1 then f.vb ≠ 0 else 64 ≤ f.vb.toNat)

/-- VC and CSC are not as the form and LX allow. -/
def vSrcCBad (F : VForm) (f : FmtV) : Bool :=
  if readsC F f then f.csc = 1 && (if f.lx = 1 then f.vc ≠ 0 else 64 ≤ f.vc.toNat)
  else f.vc ≠ 0 || f.csc ≠ 0

/-- A vector register of the word lies at or beyond the footprint (R52). -/
def vFootBad (F : VForm) (f : FmtV) (foot : Nat) : Bool :=
  (F.d = .vec && foot ≤ f.vd.toNat) || (F.a = .vec && foot ≤ f.va.toNat) ||
  (F.b = .any && f.bsc = 0 && foot ≤ f.vb.toNat) || (readsC F f && f.csc = 0 && foot ≤ f.vc.toNat)

/-- The checks of a format V word. -/
def vReason (F : VForm) (f : FmtV) (foot : Nat) : Option Nat :=
  firstOf [(vLxBad f, 2), (vTypeBad F f, 3),
    (vDstBad F f || vSrcABad F f || vSrcBBad F f || vSrcCBad F f || !immOk F.imm f || (f.km ≠ 0 && !F.km), 4),
    (vFootBad F f foot, 6)]

/-- The checks of a format S word (R47, R48, R124, R125). -/
def sReason (F : SForm) (f : FmtS) : Option Nat :=
  firstOf [
    (f.lx = 1 && (f.imm = 0 || f.imm29 ≠ 0 || (F ≠ .loadImm && bits f.lit 63 32 ≠ 0)), 2),
    (f.km ≠ 0 || (f.imm = 1 && f.sb ≠ 0) || (f.imm = 0 && f.imm29 ≠ 0) ||
      (match F with
        | .binary => false
        | .move => f.sa ≠ 0
        | .loadImm => f.imm = 0 || f.sa ≠ 0
        | .unary => f.sb ≠ 0 || f.imm ≠ 0), 4),
    (F = .loadImm && f.lx = 1 && bit f.sd 0, 5)]

/-- The checks of a format B word (R49, R134, R154). -/
def bReason (F : BForm) (f : FmtB) (foot : Nat) : Option Nat :=
  firstOf [
    (f.lx = 1, 2),
    (f.km ≠ 0 || (f.sa ≠ 0 && !F.sa) || (f.kc ≠ 0 && !F.kc) || (f.jr ≠ 0 && !F.jr) || (f.hint ≠ 0 && !F.hint) ||
      (f.neg ≠ 0 && !F.neg) || F.imm10 < f.imm10.toNat || (f.off24 ≠ 0 && !F.off), 4),
    (F.even && bit f.sa 0, 5),
    (F.vecSa && foot ≤ f.sa.toNat, 6)]

/-- Registers of one lane's datum: 1, 2 or 4 (R50). -/
def szRegs (sz : Nat) : Nat := if sz = 3 then 2 else if sz = 4 then 4 else 1

/-- Vector data registers named by a format M word. -/
def mRegs (F : MForm) (f : FmtM) : Nat :=
  match F.kind with
  | .lanes => szRegs f.sz.toNat
  | .cas => 2 * szRegs f.sz.toNat
  | .compress => 1
  | _ => 0

/-- The checks of a format M word (R50, R172, R176 to R184, R302). -/
def mReason (F : MForm) (f : FmtM) (foot : Nat) : Option Nat :=
  let scalarData := F.kind = .uniform || F.kind = .sealing
  let uniform := scalarData || F.kind = .compress
  firstOf [
    (f.lx = 1, 2),
    ((F.szs ≠ [] && !(F.szs.contains f.sz.toNat)) || !(F.scopes.contains f.scope.toNat), 3),
    ((F.szs = [] && f.sz ≠ 0) || (f.nov = 1 && f.voff ≠ 0) || (uniform && f.nov = 0) ||
      ((scalarData || F.kind = .fence) && f.km ≠ 0) || (scalarData && 64 ≤ f.vds.toNat) ||
      (F.kind = .fence && (f.vds ≠ 0 || f.sbase ≠ 0 || f.voff ≠ 0 || f.nov ≠ 0 || f.imm20 ≠ 0)), 4),
    (((F.kind = .uniform) && f.vds.toNat % szRegs f.sz.toNat ≠ 0) ||
      ((F.kind = .lanes || F.kind = .cas) && f.vds.toNat % mRegs F f ≠ 0) ||
      (F.kind = .compress && bit f.sbase 0) || (F.kind = .sealing && f.scope ≠ 2 && bit f.sbase 0), 5),
    ((0 < mRegs F f && foot < f.vds.toNat + mRegs F f) ||
      ((F.kind = .lanes || F.kind = .cas) && f.nov = 0 && foot ≤ f.voff.toNat), 6)]

/-- A register field of format E is unused and nonzero, or beyond the mask file (reason 0x04). -/
def eRegUnusedBad (k : EReg) (r : BitVec 6) : Bool :=
  match k with
  | .unused => r ≠ 0
  | .mask => 8 ≤ r.toNat
  | _ => false

/-- A register field of format E is misaligned (reason 0x05). -/
def eRegAlignBad (k : EReg) (f : FmtE) (r : BitVec 6) : Bool :=
  match k with
  | .multiple n => r.toNat % n ≠ 0
  | .recvBase => !(r = 0 || r = 16 || r = 32) || (r.toNat ≤ f.sa.toNat && f.sa.toNat ≤ r.toNat + 15)
  | .payload => 63 < r.toNat + f.imm16.toNat - 1
  | _ => false

/-- The checks of a format E word (R51, R129, R190, R205, R227, R249, R259, R297). -/
def eReason (F : EForm) (f : FmtE) (foot : Nat) : Option Nat :=
  firstOf [
    (f.lx = 1, 2),
    ((f.km ≠ 0 && !F.km) || eRegUnusedBad F.sa f.sa || eRegUnusedBad F.sb f.sb || eRegUnusedBad F.sd f.sd ||
      F.ch < f.ch.toNat || (f.q ≠ 0 && !F.q) || f.imm16.toNat < F.immLo || F.immHi < f.imm16.toNat, 4),
    (eRegAlignBad F.sa f f.sa || eRegAlignBad F.sb f f.sb || eRegAlignBad F.sd f f.sd, 5),
    ((F.sa = .vector && foot ≤ f.sa.toNat) || (F.sd = .vector && foot ≤ f.sd.toNat), 6),
    (F.sa = .pushBase && !(f.sa = 0 || f.sa = 16 || f.sa = 32), 7)]

/-- The first of the checks 0x02 to 0x07 of R54 that the instruction fails, for a group of footprint
`foot`. -/
def illegalReason (i : Instr) (foot : Nat) : Option Nat :=
  match form i with
  | .v F f => vReason F f foot
  | .s F f => sReason F f
  | .b F f => bReason F f foot
  | .m F f => mReason F f foot
  | .e F f => eReason F f foot
  | .none => none

end Sys2Proof.Machine
end

