-- ==== Sys2Proof/WellFormed.lean ====
section
/-!
DEFINITION. When an instruction is well formed: it passes every check of R54 for a group of the given
footprint, and it is the instruction that its own word decodes to (a literal only with LX = 1; the two
forms of SLI and of HGIVE as R125 and R249 tell them apart).
-/
namespace Sys2Proof

/-- The literal is zero when the word has none (R40, R46, R48). -/
def litOk (lx : BitVec 1) (lit : DWord) : Bool := lx == 1 || lit == 0

/-- The instruction is the one its own word spells. -/
def canonical (i : Instr) : Bool :=
  match i with
  | .sliShort f => f.lx == 0 && litOk f.lx f.lit
  | .sliLong f => f.lx == 1
  | .hgive f => !f.imm16.getLsbD 8
  | .hgiveMake f => f.imm16.getLsbD 8
  | i =>
    match Machine.form i with
    | .v _ f => litOk f.lx f.lit
    | .s _ f => litOk f.lx f.lit
    | .b _ _ | .m _ _ | .e _ _ | .none => true

/-- A well-formed instruction for a group of that footprint. -/
def wellFormed (i : Instr) (foot : Nat) : Bool :=
  canonical i && decide (Machine.illegalReason i foot = none)

end Sys2Proof
end

