-- ==== Sys2Proof/Decode.lean ====
section
/-!
DEFINITION. Decoding an instruction word and its literal (R38 to R54), and encoding. The fields of a
word lie as the tables of R38, R44, R47, R49, R50 and R51 give; a word whose MAJ or MIN is
unassigned, or which fails a check of R54, is rejected by name.
-/
namespace Sys2Proof

/-- Why a word is no instruction. -/
inductive Reject where
  /-- MAJ is unassigned, or MIN is beyond the last minor of its major (reason 0x01 of R54). -/
  | unassigned
  /-- The word fails the check of that reason, 0x02 to 0x07 (R54). -/
  | illFormed (reason : Nat)
deriving DecidableEq, Repr

/-- MAJ, MIN, LX and KM of a word (R38). -/
def wMaj (w : DWord) : BitVec 6 := w.extractLsb' 58 6
def wMin (w : DWord) : BitVec 6 := w.extractLsb' 52 6
def wLx (w : DWord) : BitVec 1 := w.extractLsb' 51 1
def wKm (w : DWord) : BitVec 3 := w.extractLsb' 48 3

/-- The fields of a format V word and its literal (R44, R46). -/
def unV (w lit : DWord) : FmtV :=
  { lx := wLx w, km := wKm w, vd := w.extractLsb' 41 7, va := w.extractLsb' 34 7,
    vb := w.extractLsb' 27 7, vc := w.extractLsb' 20 7, ty := w.extractLsb' 16 4,
    rm := w.extractLsb' 13 3, sat := w.extractLsb' 12 1, bsc := w.extractLsb' 11 1,
    csc := w.extractLsb' 10 1, ng := w.extractLsb' 8 2, imm8 := w.extractLsb' 0 8,
    lit := if wLx w = 1 then lit else 0 }

/-- The fields of a format S word and its literal (R47, R48). -/
def unS (w lit : DWord) : FmtS :=
  { lx := wLx w, km := wKm w, sd := w.extractLsb' 42 6, sa := w.extractLsb' 36 6,
    sb := w.extractLsb' 30 6, imm := w.extractLsb' 29 1, imm29 := w.extractLsb' 0 29,
    lit := if wLx w = 1 then lit else 0 }

/-- The fields of a format B word (R49). -/
def unB (w : DWord) : FmtB :=
  { lx := wLx w, km := wKm w, sa := w.extractLsb' 42 6, kc := w.extractLsb' 39 3,
    jr := w.extractLsb' 36 3, hint := w.extractLsb' 35 1, neg := w.extractLsb' 34 1,
    imm10 := w.extractLsb' 24 10, off24 := w.extractLsb' 0 24 }

/-- The fields of a format M word (R50). -/
def unM (w : DWord) : FmtM :=
  { lx := wLx w, km := wKm w, vds := w.extractLsb' 41 7, sbase := w.extractLsb' 35 6,
    voff := w.extractLsb' 28 7, nov := w.extractLsb' 27 1, sz := w.extractLsb' 24 3,
    scope := w.extractLsb' 20 4, imm20 := w.extractLsb' 0 20 }

/-- The fields of a format E word (R51). -/
def unE (w : DWord) : FmtE :=
  { lx := wLx w, km := wKm w, sa := w.extractLsb' 42 6, sb := w.extractLsb' 36 6,
    sd := w.extractLsb' 30 6, ch := w.extractLsb' 24 6, q := w.extractLsb' 16 8,
    imm16 := w.extractLsb' 0 16 }

/-- The instructions of major SYS (0x01), by MIN (R53). -/
def decSys (w : DWord) : Option Instr :=
  match (wMin w).toNat with
  | 0 => some (.nop (unE w))
  | 1 => some (.bkpt (unE w))
  | 2 => some (.trap (unE w))
  | 3 => some (.tret (unE w))
  | 4 => some (.yield (unE w))
  | 5 => some (.icinv (unE w))
  | 6 => some (.sread (unE w))
  | 7 => some (.swrite (unE w))
  | _ => none

/-- The instructions of major CTL (0x02), by MIN (R53). -/
def decCtl (w : DWord) : Option Instr :=
  match (wMin w).toNat with
  | 0 => some (.bra (unB w))
  | 1 => some (.bsc (unB w))
  | 2 => some (.bsz (unB w))
  | 3 => some (.bdiv (unB w))
  | 4 => some (.bdivx (unB w))
  | 5 => some (.call (unB w))
  | 6 => some (.ret (unB w))
  | 7 => some (.jmpi (unB w))
  | 8 => some (.rjset (unB w))
  | 9 => some (.rjoin (unB w))
  | 10 => some (.rjpeek (unB w))
  | 11 => some (.bar (unB w))
  | 12 => some (.exit (unB w))
  | _ => none

/-- The instructions of major SALU (0x04), by MIN (R53). -/
def decSalu (w lit : DWord) : Option Instr :=
  match (wMin w).toNat with
  | 0 => some (.sadd (unS w lit))
  | 1 => some (.ssub (unS w lit))
  | 2 => some (.smul (unS w lit))
  | 3 => some (.smulh (unS w lit))
  | 4 => some (.smulhu (unS w lit))
  | 5 => some (.sand (unS w lit))
  | 6 => some (.sor (unS w lit))
  | 7 => some (.sxor (unS w lit))
  | 8 => some (.sandn (unS w lit))
  | 9 => some (.sshl (unS w lit))
  | 10 => some (.sshr (unS w lit))
  | 11 => some (.ssar (unS w lit))
  | 12 => some (.srot (unS w lit))
  | 13 => some (.smin (unS w lit))
  | 14 => some (.smax (unS w lit))
  | 15 => some (.sminu (unS w lit))
  | 16 => some (.smaxu (unS w lit))
  | 17 => some (.smov (unS w lit))
  | 18 => some (if wLx w = 1 then .sliLong (unS w lit) else .sliShort (unS w lit))
  | 19 => some (.slih (unS w lit))
  | 20 => some (.sceq (unS w lit))
  | 21 => some (.scne (unS w lit))
  | 22 => some (.sclt (unS w lit))
  | 23 => some (.scle (unS w lit))
  | 24 => some (.scltu (unS w lit))
  | 25 => some (.scleu (unS w lit))
  | 26 => some (.ssel (unS w lit))
  | 27 => some (.spopc (unS w lit))
  | 28 => some (.sclz (unS w lit))
  | 29 => some (.sffs (unS w lit))
  | _ => none

/-- The instructions of major MSK (0x05), by MIN (R53). -/
def decMsk (w lit : DWord) : Option Instr :=
  match (wMin w).toNat with
  | 0 => some (.kand (unV w lit))
  | 1 => some (.kor (unV w lit))
  | 2 => some (.kxor (unV w lit))
  | 3 => some (.kandn (unV w lit))
  | 4 => some (.knot (unV w lit))
  | 5 => some (.kmov (unV w lit))
  | 6 => some (.kfroms (unV w lit))
  | 7 => some (.ktos (unV w lit))
  | 8 => some (.kpopc (unV w lit))
  | 9 => some (.kfirst (unV w lit))
  | _ => none

/-- The instructions of major VINT (0x08), by MIN (R53). -/
def decVint (w lit : DWord) : Option Instr :=
  match (wMin w).toNat with
  | 0 => some (.vadd (unV w lit))
  | 1 => some (.vsub (unV w lit))
  | 2 => some (.vmul (unV w lit))
  | 3 => some (.vmulh (unV w lit))
  | 4 => some (.vmulhu (unV w lit))
  | 5 => some (.vmad (unV w lit))
  | 6 => some (.vmin (unV w lit))
  | 7 => some (.vmax (unV w lit))
  | 8 => some (.vminu (unV w lit))
  | 9 => some (.vmaxu (unV w lit))
  | 10 => some (.vabs (unV w lit))
  | 11 => some (.vneg (unV w lit))
  | 12 => some (.vsadd (unV w lit))
  | 13 => some (.vssub (unV w lit))
  | 14 => some (.vsaddu (unV w lit))
  | 15 => some (.vssubu (unV w lit))
  | 16 => some (.vand (unV w lit))
  | 17 => some (.vor (unV w lit))
  | 18 => some (.vxor (unV w lit))
  | 19 => some (.vandn (unV w lit))
  | 20 => some (.vnot (unV w lit))
  | 21 => some (.vshl (unV w lit))
  | 22 => some (.vshr (unV w lit))
  | 23 => some (.vsar (unV w lit))
  | 24 => some (.vrot (unV w lit))
  | 25 => some (.vclz (unV w lit))
  | 26 => some (.vpopc (unV w lit))
  | 27 => some (.vbrev (unV w lit))
  | 28 => some (.vbfx (unV w lit))
  | 29 => some (.vbfi (unV w lit))
  | 30 => some (.vsel (unV w lit))
  | 31 => some (.vmov (unV w lit))
  | 32 => some (.vmovs (unV w lit))
  | _ => none

/-- The instructions of major VCMP (0x09), by MIN (R53). -/
def decVcmp (w lit : DWord) : Option Instr :=
  match (wMin w).toNat with
  | 0 => some (.vceq (unV w lit))
  | 1 => some (.vcne (unV w lit))
  | 2 => some (.vclt (unV w lit))
  | 3 => some (.vcle (unV w lit))
  | 4 => some (.vcltu (unV w lit))
  | 5 => some (.vcleu (unV w lit))
  | 6 => some (.vfceq (unV w lit))
  | 7 => some (.vfclt (unV w lit))
  | 8 => some (.vfcle (unV w lit))
  | 9 => some (.vfcun (unV w lit))
  | 10 => some (.vfclass (unV w lit))
  | _ => none

/-- The instructions of major VFP (0x0A), by MIN (R53). -/
def decVfp (w lit : DWord) : Option Instr :=
  match (wMin w).toNat with
  | 0 => some (.vfadd (unV w lit))
  | 1 => some (.vfsub (unV w lit))
  | 2 => some (.vfmul (unV w lit))
  | 3 => some (.vfma (unV w lit))
  | 4 => some (.vfms (unV w lit))
  | 5 => some (.vfnma (unV w lit))
  | 6 => some (.vfnms (unV w lit))
  | 7 => some (.vfmin (unV w lit))
  | 8 => some (.vfmax (unV w lit))
  | 9 => some (.vfabs (unV w lit))
  | 10 => some (.vfneg (unV w lit))
  | 11 => some (.vfcpys (unV w lit))
  | 12 => some (.vfrint (unV w lit))
  | _ => none

/-- The instructions of major VXF (0x0B), by MIN (R53). -/
def decVxf (w lit : DWord) : Option Instr :=
  match (wMin w).toNat with
  | 0 => some (.vrcp (unV w lit))
  | 1 => some (.vrsq (unV w lit))
  | 2 => some (.vsqrt (unV w lit))
  | 3 => some (.vdiv (unV w lit))
  | 4 => some (.vexp2 (unV w lit))
  | 5 => some (.vlog2 (unV w lit))
  | 6 => some (.vsin (unV w lit))
  | 7 => some (.vcos (unV w lit))
  | 8 => some (.vtanh (unV w lit))
  | 9 => some (.vsigm (unV w lit))
  | _ => none

/-- The instructions of major VCVT (0x0C), by MIN (R53). -/
def decVcvt (w lit : DWord) : Option Instr :=
  match (wMin w).toNat with
  | 0 => some (.vcvt (unV w lit))
  | 1 => some (.vpack (unV w lit))
  | 2 => some (.vunpk (unV w lit))
  | _ => none

/-- The instructions of major VLX (0x0D), by MIN (R53). -/
def decVlx (w lit : DWord) : Option Instr :=
  match (wMin w).toNat with
  | 0 => some (.qswapx (unV w lit))
  | 1 => some (.qswapy (unV w lit))
  | 2 => some (.qswapd (unV w lit))
  | 3 => some (.qbcast (unV w lit))
  | 4 => some (.vshfl (unV w lit))
  | 5 => some (.vshflup (unV w lit))
  | 6 => some (.vshfldn (unV w lit))
  | 7 => some (.vbcast (unV w lit))
  | 8 => some (.vredu (unV w lit))
  | 9 => some (.vscan (unV w lit))
  | 10 => some (.vballot (unV w lit))
  | 11 => some (.vcomp (unV w lit))
  | _ => none

/-- The instructions of major SPM (0x10), by MIN (R53). -/
def decSpm (w : DWord) : Option Instr :=
  match (wMin w).toNat with
  | 0 => some (.lds (unM w))
  | 1 => some (.sts (unM w))
  | 2 => some (.ldu (unM w))
  | 3 => some (.stu (unM w))
  | 4 => some (.ldres (unM w))
  | 5 => some (.stcnd (unM w))
  | 6 => some (.stcmp (unM w))
  | _ => none

/-- The instructions of major SAT (0x11), by MIN (R53). -/
def decSat (w : DWord) : Option Instr :=
  match (wMin w).toNat with
  | 0 => some (.aadd (unM w))
  | 1 => some (.asub (unM w))
  | 2 => some (.amin (unM w))
  | 3 => some (.amax (unM w))
  | 4 => some (.aminu (unM w))
  | 5 => some (.amaxu (unM w))
  | 6 => some (.aand (unM w))
  | 7 => some (.aor (unM w))
  | 8 => some (.axor (unM w))
  | 9 => some (.axchg (unM w))
  | 10 => some (.acas (unM w))
  | 11 => some (.afadd (unM w))
  | _ => none

/-- The instructions of major FEN (0x12), by MIN (R53). -/
def decFen (w : DWord) : Option Instr :=
  match (wMin w).toNat with
  | 0 => some (.fence (unM w))
  | 1 => some (.fseal (unM w))
  | 2 => some (.funseal (unM w))
  | _ => none

/-- The instructions of major ENG (0x14), by MIN (R53). -/
def decEng (w : DWord) : Option Instr :=
  match (wMin w).toNat with
  | 0 => some (.push (unE w))
  | 1 => some (.bclose (unE w))
  | 2 => some (.bwait (unE w))
  | 3 => some (.bstat (unE w))
  | 4 => some (.waitc (unE w))
  | 5 => some (.resid (unE w))
  | _ => none

/-- The instructions of major CHN (0x15), by MIN (R53). -/
def decChn (w : DWord) : Option Instr :=
  match (wMin w).toNat with
  | 0 => some (.send (unE w))
  | 1 => some (.sendv (unE w))
  | 2 => some (.recv (unE w))
  | 3 => some (.recvt (unE w))
  | 4 => some (.recvv (unE w))
  | 5 => some (.amsg (unE w))
  | _ => none

/-- The instructions of major TSK (0x16), by MIN (R53). -/
def decTsk (w : DWord) : Option Instr :=
  match (wMin w).toNat with
  | 0 => some (.spawn (unE w))
  | 1 => some (.commit (unE w))
  | 2 => some (.tjoin (unE w))
  | 3 => some (.tstat (unE w))
  | _ => none

/-- The instructions of major CLU (0x18), by MIN (R53). -/
def decClu (w : DWord) : Option Instr :=
  match (wMin w).toNat with
  | 0 => some (if (unE w).imm16.getLsbD 8 then .hgiveMake (unE w) else .hgive (unE w))
  | 1 => some (.htake (unE w))
  | 2 => some (.htaket (unE w))
  | 3 => some (.hstat (unE w))
  | 4 => some (.hdrop (unE w))
  | _ => none

/-- The instructions of major MTX (0x19), by MIN (R53). -/
def decMtx (w : DWord) : Option Instr :=
  match (wMin w).toNat with
  | 0 => some (.mloadw (unE w))
  | 1 => some (.mswap (unE w))
  | 2 => some (.mloop (unE w))
  | 3 => some (.mdrain (unE w))
  | 4 => some (.mzero (unE w))
  | 5 => some (.mstat (unE w))
  | _ => none

/-- The instructions of major CVY (0x1A), by MIN (R53). -/
def decCvy (w : DWord) : Option Instr :=
  match (wMin w).toNat with
  | 0 => some (.cvjoin (unE w))
  | 1 => some (.cvleave (unE w))
  | _ => none

/-- The instruction that a word and its literal spell, by MAJ and MIN (R38, R53). -/
def decodeOp (w lit : DWord) : Option Instr :=
  match (wMaj w).toNat with
  | 1 => decSys w
  | 2 => decCtl w
  | 4 => decSalu w lit
  | 5 => decMsk w lit
  | 8 => decVint w lit
  | 9 => decVcmp w lit
  | 10 => decVfp w lit
  | 11 => decVxf w lit
  | 12 => decVcvt w lit
  | 13 => decVlx w lit
  | 16 => decSpm w
  | 17 => decSat w
  | 18 => decFen w
  | 20 => decEng w
  | 21 => decChn w
  | 22 => decTsk w
  | 24 => decClu w
  | 25 => decMtx w
  | 26 => decCvy w
  | _ => none

/-- The instruction of a word and its literal for a group of that footprint, checked in the order of
R54; else the reason it is none. -/
def decode (w lit : DWord) (foot : Nat) : Except Reject Instr :=
  match decodeOp w lit with
  | none => .error .unassigned
  | some i =>
    match Machine.illegalReason i foot with
    | none => .ok i
    | some r => .error (.illFormed r)

/-- The reason code that ILLEGAL reports for a rejected word (R54). -/
def Reject.code : Reject → Nat
  | .unassigned => 1
  | .illFormed r => r

/-! ### Encoding -/

/-- The high 16 bits of a word (R38). -/
def packHead (maj min : Nat) (lx : BitVec 1) (km : BitVec 3) : BitVec 16 :=
  BitVec.ofNat 6 maj ++ BitVec.ofNat 6 min ++ lx ++ km

def packV (maj min : Nat) (f : FmtV) : DWord :=
  packHead maj min f.lx f.km ++ f.vd ++ f.va ++ f.vb ++ f.vc ++ f.ty ++ f.rm ++ f.sat ++ f.bsc ++ f.csc ++
    f.ng ++ f.imm8

def packS (maj min : Nat) (f : FmtS) : DWord :=
  packHead maj min f.lx f.km ++ f.sd ++ f.sa ++ f.sb ++ f.imm ++ f.imm29

def packB (maj min : Nat) (f : FmtB) : DWord :=
  packHead maj min f.lx f.km ++ f.sa ++ f.kc ++ f.jr ++ f.hint ++ f.neg ++ f.imm10 ++ f.off24

def packM (maj min : Nat) (f : FmtM) : DWord :=
  packHead maj min f.lx f.km ++ f.vds ++ f.sbase ++ f.voff ++ f.nov ++ f.sz ++ f.scope ++ f.imm20

def packE (maj min : Nat) (f : FmtE) : DWord :=
  packHead maj min f.lx f.km ++ f.sa ++ f.sb ++ f.sd ++ f.ch ++ f.q ++ f.imm16

/-- A word and, when LX = 1, its literal. -/
def withLit (w : DWord) (lx : BitVec 1) (lit : DWord) : List DWord := if lx = 1 then [w, lit] else [w]

/-- The words of an encoded instruction; an engine command or event has none. -/
def encode : Instr → List DWord
  | .nop f => [packE 1 0 f]
  | .bkpt f => [packE 1 1 f]
  | .trap f => [packE 1 2 f]
  | .tret f => [packE 1 3 f]
  | .yield f => [packE 1 4 f]
  | .icinv f => [packE 1 5 f]
  | .sread f => [packE 1 6 f]
  | .swrite f => [packE 1 7 f]
  | .bra f => [packB 2 0 f]
  | .bsc f => [packB 2 1 f]
  | .bsz f => [packB 2 2 f]
  | .bdiv f => [packB 2 3 f]
  | .bdivx f => [packB 2 4 f]
  | .call f => [packB 2 5 f]
  | .ret f => [packB 2 6 f]
  | .jmpi f => [packB 2 7 f]
  | .rjset f => [packB 2 8 f]
  | .rjoin f => [packB 2 9 f]
  | .rjpeek f => [packB 2 10 f]
  | .bar f => [packB 2 11 f]
  | .exit f => [packB 2 12 f]
  | .sadd f => withLit (packS 4 0 f) f.lx f.lit
  | .ssub f => withLit (packS 4 1 f) f.lx f.lit
  | .smul f => withLit (packS 4 2 f) f.lx f.lit
  | .smulh f => withLit (packS 4 3 f) f.lx f.lit
  | .smulhu f => withLit (packS 4 4 f) f.lx f.lit
  | .sand f => withLit (packS 4 5 f) f.lx f.lit
  | .sor f => withLit (packS 4 6 f) f.lx f.lit
  | .sxor f => withLit (packS 4 7 f) f.lx f.lit
  | .sandn f => withLit (packS 4 8 f) f.lx f.lit
  | .sshl f => withLit (packS 4 9 f) f.lx f.lit
  | .sshr f => withLit (packS 4 10 f) f.lx f.lit
  | .ssar f => withLit (packS 4 11 f) f.lx f.lit
  | .srot f => withLit (packS 4 12 f) f.lx f.lit
  | .smin f => withLit (packS 4 13 f) f.lx f.lit
  | .smax f => withLit (packS 4 14 f) f.lx f.lit
  | .sminu f => withLit (packS 4 15 f) f.lx f.lit
  | .smaxu f => withLit (packS 4 16 f) f.lx f.lit
  | .smov f => withLit (packS 4 17 f) f.lx f.lit
  | .sliShort f => withLit (packS 4 18 f) f.lx f.lit
  | .sliLong f => withLit (packS 4 18 f) f.lx f.lit
  | .slih f => withLit (packS 4 19 f) f.lx f.lit
  | .sceq f => withLit (packS 4 20 f) f.lx f.lit
  | .scne f => withLit (packS 4 21 f) f.lx f.lit
  | .sclt f => withLit (packS 4 22 f) f.lx f.lit
  | .scle f => withLit (packS 4 23 f) f.lx f.lit
  | .scltu f => withLit (packS 4 24 f) f.lx f.lit
  | .scleu f => withLit (packS 4 25 f) f.lx f.lit
  | .ssel f => withLit (packS 4 26 f) f.lx f.lit
  | .spopc f => withLit (packS 4 27 f) f.lx f.lit
  | .sclz f => withLit (packS 4 28 f) f.lx f.lit
  | .sffs f => withLit (packS 4 29 f) f.lx f.lit
  | .kand f => withLit (packV 5 0 f) f.lx f.lit
  | .kor f => withLit (packV 5 1 f) f.lx f.lit
  | .kxor f => withLit (packV 5 2 f) f.lx f.lit
  | .kandn f => withLit (packV 5 3 f) f.lx f.lit
  | .knot f => withLit (packV 5 4 f) f.lx f.lit
  | .kmov f => withLit (packV 5 5 f) f.lx f.lit
  | .kfroms f => withLit (packV 5 6 f) f.lx f.lit
  | .ktos f => withLit (packV 5 7 f) f.lx f.lit
  | .kpopc f => withLit (packV 5 8 f) f.lx f.lit
  | .kfirst f => withLit (packV 5 9 f) f.lx f.lit
  | .vadd f => withLit (packV 8 0 f) f.lx f.lit
  | .vsub f => withLit (packV 8 1 f) f.lx f.lit
  | .vmul f => withLit (packV 8 2 f) f.lx f.lit
  | .vmulh f => withLit (packV 8 3 f) f.lx f.lit
  | .vmulhu f => withLit (packV 8 4 f) f.lx f.lit
  | .vmad f => withLit (packV 8 5 f) f.lx f.lit
  | .vmin f => withLit (packV 8 6 f) f.lx f.lit
  | .vmax f => withLit (packV 8 7 f) f.lx f.lit
  | .vminu f => withLit (packV 8 8 f) f.lx f.lit
  | .vmaxu f => withLit (packV 8 9 f) f.lx f.lit
  | .vabs f => withLit (packV 8 10 f) f.lx f.lit
  | .vneg f => withLit (packV 8 11 f) f.lx f.lit
  | .vsadd f => withLit (packV 8 12 f) f.lx f.lit
  | .vssub f => withLit (packV 8 13 f) f.lx f.lit
  | .vsaddu f => withLit (packV 8 14 f) f.lx f.lit
  | .vssubu f => withLit (packV 8 15 f) f.lx f.lit
  | .vand f => withLit (packV 8 16 f) f.lx f.lit
  | .vor f => withLit (packV 8 17 f) f.lx f.lit
  | .vxor f => withLit (packV 8 18 f) f.lx f.lit
  | .vandn f => withLit (packV 8 19 f) f.lx f.lit
  | .vnot f => withLit (packV 8 20 f) f.lx f.lit
  | .vshl f => withLit (packV 8 21 f) f.lx f.lit
  | .vshr f => withLit (packV 8 22 f) f.lx f.lit
  | .vsar f => withLit (packV 8 23 f) f.lx f.lit
  | .vrot f => withLit (packV 8 24 f) f.lx f.lit
  | .vclz f => withLit (packV 8 25 f) f.lx f.lit
  | .vpopc f => withLit (packV 8 26 f) f.lx f.lit
  | .vbrev f => withLit (packV 8 27 f) f.lx f.lit
  | .vbfx f => withLit (packV 8 28 f) f.lx f.lit
  | .vbfi f => withLit (packV 8 29 f) f.lx f.lit
  | .vsel f => withLit (packV 8 30 f) f.lx f.lit
  | .vmov f => withLit (packV 8 31 f) f.lx f.lit
  | .vmovs f => withLit (packV 8 32 f) f.lx f.lit
  | .vceq f => withLit (packV 9 0 f) f.lx f.lit
  | .vcne f => withLit (packV 9 1 f) f.lx f.lit
  | .vclt f => withLit (packV 9 2 f) f.lx f.lit
  | .vcle f => withLit (packV 9 3 f) f.lx f.lit
  | .vcltu f => withLit (packV 9 4 f) f.lx f.lit
  | .vcleu f => withLit (packV 9 5 f) f.lx f.lit
  | .vfceq f => withLit (packV 9 6 f) f.lx f.lit
  | .vfclt f => withLit (packV 9 7 f) f.lx f.lit
  | .vfcle f => withLit (packV 9 8 f) f.lx f.lit
  | .vfcun f => withLit (packV 9 9 f) f.lx f.lit
  | .vfclass f => withLit (packV 9 10 f) f.lx f.lit
  | .vfadd f => withLit (packV 10 0 f) f.lx f.lit
  | .vfsub f => withLit (packV 10 1 f) f.lx f.lit
  | .vfmul f => withLit (packV 10 2 f) f.lx f.lit
  | .vfma f => withLit (packV 10 3 f) f.lx f.lit
  | .vfms f => withLit (packV 10 4 f) f.lx f.lit
  | .vfnma f => withLit (packV 10 5 f) f.lx f.lit
  | .vfnms f => withLit (packV 10 6 f) f.lx f.lit
  | .vfmin f => withLit (packV 10 7 f) f.lx f.lit
  | .vfmax f => withLit (packV 10 8 f) f.lx f.lit
  | .vfabs f => withLit (packV 10 9 f) f.lx f.lit
  | .vfneg f => withLit (packV 10 10 f) f.lx f.lit
  | .vfcpys f => withLit (packV 10 11 f) f.lx f.lit
  | .vfrint f => withLit (packV 10 12 f) f.lx f.lit
  | .vrcp f => withLit (packV 11 0 f) f.lx f.lit
  | .vrsq f => withLit (packV 11 1 f) f.lx f.lit
  | .vsqrt f => withLit (packV 11 2 f) f.lx f.lit
  | .vdiv f => withLit (packV 11 3 f) f.lx f.lit
  | .vexp2 f => withLit (packV 11 4 f) f.lx f.lit
  | .vlog2 f => withLit (packV 11 5 f) f.lx f.lit
  | .vsin f => withLit (packV 11 6 f) f.lx f.lit
  | .vcos f => withLit (packV 11 7 f) f.lx f.lit
  | .vtanh f => withLit (packV 11 8 f) f.lx f.lit
  | .vsigm f => withLit (packV 11 9 f) f.lx f.lit
  | .vcvt f => withLit (packV 12 0 f) f.lx f.lit
  | .vpack f => withLit (packV 12 1 f) f.lx f.lit
  | .vunpk f => withLit (packV 12 2 f) f.lx f.lit
  | .qswapx f => withLit (packV 13 0 f) f.lx f.lit
  | .qswapy f => withLit (packV 13 1 f) f.lx f.lit
  | .qswapd f => withLit (packV 13 2 f) f.lx f.lit
  | .qbcast f => withLit (packV 13 3 f) f.lx f.lit
  | .vshfl f => withLit (packV 13 4 f) f.lx f.lit
  | .vshflup f => withLit (packV 13 5 f) f.lx f.lit
  | .vshfldn f => withLit (packV 13 6 f) f.lx f.lit
  | .vbcast f => withLit (packV 13 7 f) f.lx f.lit
  | .vredu f => withLit (packV 13 8 f) f.lx f.lit
  | .vscan f => withLit (packV 13 9 f) f.lx f.lit
  | .vballot f => withLit (packV 13 10 f) f.lx f.lit
  | .vcomp f => withLit (packV 13 11 f) f.lx f.lit
  | .lds f => [packM 16 0 f]
  | .sts f => [packM 16 1 f]
  | .ldu f => [packM 16 2 f]
  | .stu f => [packM 16 3 f]
  | .ldres f => [packM 16 4 f]
  | .stcnd f => [packM 16 5 f]
  | .stcmp f => [packM 16 6 f]
  | .aadd f => [packM 17 0 f]
  | .asub f => [packM 17 1 f]
  | .amin f => [packM 17 2 f]
  | .amax f => [packM 17 3 f]
  | .aminu f => [packM 17 4 f]
  | .amaxu f => [packM 17 5 f]
  | .aand f => [packM 17 6 f]
  | .aor f => [packM 17 7 f]
  | .axor f => [packM 17 8 f]
  | .axchg f => [packM 17 9 f]
  | .acas f => [packM 17 10 f]
  | .afadd f => [packM 17 11 f]
  | .fence f => [packM 18 0 f]
  | .fseal f => [packM 18 1 f]
  | .funseal f => [packM 18 2 f]
  | .push f => [packE 20 0 f]
  | .bclose f => [packE 20 1 f]
  | .bwait f => [packE 20 2 f]
  | .bstat f => [packE 20 3 f]
  | .waitc f => [packE 20 4 f]
  | .resid f => [packE 20 5 f]
  | .send f => [packE 21 0 f]
  | .sendv f => [packE 21 1 f]
  | .recv f => [packE 21 2 f]
  | .recvt f => [packE 21 3 f]
  | .recvv f => [packE 21 4 f]
  | .amsg f => [packE 21 5 f]
  | .spawn f => [packE 22 0 f]
  | .commit f => [packE 22 1 f]
  | .tjoin f => [packE 22 2 f]
  | .tstat f => [packE 22 3 f]
  | .hgive f => [packE 24 0 f]
  | .hgiveMake f => [packE 24 0 f]
  | .htake f => [packE 24 1 f]
  | .htaket f => [packE 24 2 f]
  | .hstat f => [packE 24 3 f]
  | .hdrop f => [packE 24 4 f]
  | .mloadw f => [packE 25 0 f]
  | .mswap f => [packE 25 1 f]
  | .mloop f => [packE 25 2 f]
  | .mdrain f => [packE 25 3 f]
  | .mzero f => [packE 25 4 f]
  | .mstat f => [packE 25 5 f]
  | .cvjoin f => [packE 26 0 f]
  | .cvleave f => [packE 26 1 f]
  | .copy .. => []
  | .copy2d .. => []
  | .fill .. => []
  | .gather .. => []
  | .scatter .. => []
  | .atom .. => []
  | .reduce .. => []
  | .allred .. => []
  | .bcast .. => []
  | .pagereq .. => []
  | .tlbinv .. => []
  | .rcopy .. => []
  | .commandCompletion .. => []
  | .storePerform .. => []
  | .rejoinRelease .. => []
  | .barrierRelease .. => []
  | .fairnessDue .. => []
  | .paddockSwap .. => []
  | .reservationGraceEnd .. => []
  | .softErrorRollback .. => []
  | .matrixTrapDelivery .. => []
  | .taskPlacement .. => []
  | .taskSteal .. => []
  | .stealAcknowledgement .. => []
  | .leaseExpiry .. => []
  | .launchTake .. => []
  | .gangPlacement .. => []
  | .launchEnd .. => []
  | .messageArrival .. => []
  | .receiveFill .. => []
  | .nackArrival .. => []
  | .amsgArrival .. => []
  | .handlerStart .. => []
  | .convoyAnswer .. => []
  | .boundUpdate .. => []
  | .unhitchTimeout .. => []
  | .foldReadRequest .. => []
  | .dramDataArrival .. => []
  | .stopWrite .. => []
  | .stopAtomic .. => []
  | .unitTranslation .. => []
  | .pageWalkComplete .. => []
  | .globalSealRequest .. => []
  | .globalUnsealRequest .. => []
  | .replicaCopy .. => []
  | .outputPortGrant .. => []
  | .headPromotion .. => []
  | .mesharbWrite .. => []
  | .mesharbApply .. => []
  | .slotcmd .. => []
  | .slotTableReplace .. => []
  | .passGrant .. => []
  | .loopPriorityAging .. => []
  | .matrixEntryComplete .. => []
  | .drainPerform .. => []
  | .zeroPerform .. => []
  | .planeLoad .. => []
  | .planeSwap .. => []
  | .operandFault .. => []
  | .spareRowMismatch .. => []
  | .accumulatorError .. => []
  | .engineService .. => []
  | .qwpDoorbell .. => []
  | .registerWrite .. => []
  | .functionLevelReset .. => []
  | .ckptSave .. => []
  | .ckptRestore .. => []
  | .quiesceTimeout .. => []
  | .checkpointDone .. => []
  | .resume .. => []
  | .replan .. => []
  | .periodicReplan .. => []
  | .containClear .. => []
  | .fixlat .. => []
  | .clrcnt .. => []
  | .linkRetrain .. => []
  | .ctxSave .. => []
  | .ctxRestore .. => []
  | .ctxDiscard .. => []
  | .dbgClaim .. => []
  | .dbgRelease .. => []
  | .dbgStepOne .. => []
  | .dbgStepAll .. => []
  | .dbgMove .. => []
  | .boot .. => []
  | .spdmGetCertificate .. => []
  | .spdmGetMeasurements .. => []
  | .corePowerGate .. => []
  | .instructionFetch .. => []
  | .fetchReturn .. => []
  | .hostReadCompletion .. => []
  | .linkFrameArrival .. => []
  | .linkDown .. => []
  | .keyRenewal .. => []
  | .fabricForward .. => []
  | .contributionArrival .. => []
  | .contributorTimeout .. => []
  | .combinerTimeout .. => []
  | .rcopyUnitArrival .. => []
  | .illegalWord .. => []
  | .resultArrival .. => []
  | .taskCompletionReport .. => []
  | .hostWriteCompletion .. => []
  | .linkTrained .. => []
  | .ideKm .. => []
  | .powerStateChange .. => []
  | .modulePowerLimit .. => []
  | .ckptRestoreDone .. => []
  | .functionLevelResetDone .. => []

/-- The decoder on a row of spec/opcode_table.json: the word is the low 64 bits, its literal the 64
above, and the footprint is the greatest (R52). The table gives no row any bits. -/
def decodeTableWord (nbits w : Nat) : Option Instr :=
  let v := w % 2 ^ nbits
  match decode (BitVec.ofNat 64 v) (BitVec.ofNat 64 (v / 2 ^ 64)) 128 with
  | .ok i => some i
  | .error _ => none

end Sys2Proof
end

