-- ==== Sys2Proof/Machine/Pieces.lean ====
section
/-!
DEFINITION. How a command's bytes map onto addresses (R194), and what an engine does with the answer to
a request (R193, R378).
-/
namespace Sys2Proof.Machine

/-! ### Positions of a command

A command moves its bytes at positions 0 to total - 1 in increasing order. -/

/-- Words of a command as numbers. -/
def Cmd.n (m : Cmd) (i : Nat) : Nat := (wd m.w i).toNat
/-- Its opcode. -/
def Cmd.op (m : Cmd) : Nat := cmdOp m.w

/-- Bytes that a command moves; one for ATOM (R194, R398). -/
def Cmd.total (m : Cmd) : Nat :=
  match m.op with
  | 2 => m.n 1 * m.n 8
  | 4 => m.n 1 * m.n 8
  | 5 => m.n 1 * m.n 8
  | 6 => 1
  | 7 => 4 * m.n 1
  | 8 => 4 * m.n 1
  | 9 => 4 * m.n 1
  | _ => m.n 1

/-- Whether a length or count of 0 makes the command complete without any access (R194). -/
def Cmd.empty (m : Cmd) : Bool := decide (m.total = 0)

/-- Bytes of one row or element; a position lies in element pos / elem (R194). -/
def Cmd.elem (m : Cmd) : Nat := if m.op = 2 ∨ m.op = 4 ∨ m.op = 5 then m.n 1 else m.total

/-- The block that pushed a command, while it stands. -/
def State.cmdBlock (s : State) (c : Nat) (m : Cmd) : Option Block :=
  match s.block? c m.block with
  | some k => if k.uid = m.buid then some k else none
  | none => none

/-- Index `k` of a GATHER or SCATTER, from its index buffer (R194). -/
def Cmd.index (m : Cmd) (s : State) (c : Nat) (k : Nat) : Nat :=
  match s.cmdBlock c m with
  | some b => leNat (tblBytes (s.core c).spad (b.base + m.n 10 + 4 * k) 4)
  | none => 0

/-- Where the source byte of a position lies (R194). -/
def Cmd.srcAt (m : Cmd) (s : State) (c pos : Nat) : Option Place :=
  let k := pos / m.elem
  let o := pos % m.elem
  (placeAt m.w 2).map fun p =>
    match m.op with
    | 2 => p.plus (k * m.n 6 + o)
    | 4 => p.plus (m.index s c k * m.n 6 + o)
    | _ => p.plus pos

/-- Where the destination byte of a position lies; the destination of ATOM is that of its result (R194). -/
def Cmd.dstAt (m : Cmd) (s : State) (c pos : Nat) : Option Place :=
  let k := pos / m.elem
  let o := pos % m.elem
  (placeAt m.w 4).map fun p =>
    match m.op with
    | 2 => p.plus (k * m.n 7 + o)
    | 5 => p.plus (m.index s c k * m.n 7 + o)
    | 6 => .loc (m.n 6 + pos)
    | _ => p.plus pos

/-- A stretch of a core's scratchpad that a place of a command reaches, or none when it is not wholly
below U or within a valid handle's buffer (R194). -/
def State.spot (s : State) (c : Nat) (m : Cmd) (p : Place) (len : Nat) : Option (Nat × Nat) :=
  match s.cmdBlock c m with
  | none => none
  | some k =>
    match p with
    | .glob _ => none
    | .loc o => if o + len ≤ k.usable then some (c, k.base + o) else none
    | .hand h o =>
      if s.handleReason c m.block h = 0 ∧ o + len ≤ 32 * (s.handleBuf c h).len32 then
        some (handleHome c h, (s.handleBuf c h).base + o)
      else none

/-- The block and slot under whose journal a command writes: only in the interval in which it was
accepted (R216). -/
def State.cmdWriter (s : State) (c : Nat) (m : Cmd) : Option (Nat × Nat) :=
  match s.cmdBlock c m with
  | some k => if k.interval = m.interval then some (c, m.block) else none
  | none => none

/-- The interval of a command exposed, when it was accepted in the current one (R217). -/
def State.exposeCmd (s : State) (c : Nat) (m : Cmd) : State :=
  match s.cmdWriter c m with
  | some (c, b) => s.expose c b
  | none => s

/-- Status bits ORed into a command (R198). -/
def State.cmdStatus (s : State) (c seq : Nat) (st : Word) : State :=
  s.modCmd c seq fun m => { m with status := m.status ||| st }

/-- The answer of an owner die to the split that asked: it becomes what the split waits for. -/
def State.answerAsk (s : State) (a : Ask) (w : Word) : State :=
  s.modCore a.core fun x => { x with groups := tmod x.groups a.slot fun g =>
    if g.uid = a.uid then
      { g with splits := g.splits.map fun p =>
          if p.await = .asked a.id then { p with await := .answered w } else p }
    else g }

/-- Status bits of a write that ends after its command may have completed: ORed into the command, or
into the batch that held it (R193, R198). -/
def State.lateStatus (s : State) (c uid seq : Nat) (st : Word) : State :=
  if st = 0 then s
  else if (s.core c).cmds.any fun m => decide (m.seq = seq) then s.cmdStatus c seq st
  else
    let upd (g : Group) : Group :=
      let b := (g.cmds.batches.find? fun kb => decide (seq < kb.2.upto)).map (·.1)
      { g with cmds := g.cmds.orStatus b st }
    s.modCore c fun x =>
      { x with groups := x.groups.map fun kg => if kg.2.uid = uid then (kg.1, upd kg.2) else kg }

/-- A write or atomic has performed, or will not (R362). -/
def State.landed (s : State) (id : Nat) : State :=
  { s with fly := s.fly.filter fun f => decide (f.id ≠ id) }

/-- Whether a rollback has stopped a write or atomic in flight (R219). -/
def State.calledOff (s : State) (id : Nat) : Bool := s.fly.any fun f => decide (f.id = id) && f.off

/-- A write of a command has performed: it has written a part of its 64-byte block, which lies at `at_`
(R368). -/
def State.notePart (s : State) (f : Fly) (at_ : Nat × Nat) : State :=
  let b := f.va / 64
  ({ s with fly := s.fly.map fun (g : Fly) =>
    if g.core = f.core ∧ g.uid = f.uid ∧ g.seq = f.seq ∧ g.va / 64 = b then { g with part := some at_ } else g }).modCmd
      f.core f.seq fun m => if m.wrote.contains (b, at_) then m else { m with wrote := (b, at_) :: m.wrote }

/-- A write or atomic has performed, in the 64 bytes at `at_`: the interval in which its command was accepted is
exposed, when it is still the current one (R217, R286). -/
def State.performed (s : State) (id : Nat) (at_ : Nat × Nat) : State :=
  match s.fly.find? fun f => decide (f.id = id) with
  | none => s.landed id
  | some f =>
    let s1 := (s.landed id).notePart f at_
    match s.block? f.core f.block with
    | none => s1
    | some k => if k.uid = f.buid ∧ k.interval = f.interval then s1.expose f.core f.block else s1

/-- The bytes of scratchpad lines in `t` without those of some cells. -/
def uncoverLines (t : Tbl (BitVec 32)) (home : Nat) (cells : List (Nat × Byte)) : Tbl (BitVec 32) :=
  cells.foldl (fun t c =>
    let k := 32768 * home + c.1 / 32
    tset 0 t k (tget 0 t k &&& ~~~(1#32 <<< (c.1 % 32)))) t

/-- Bytes that have just been written with poison, or with data that is not resident: no command counts
them any more among those that it has written clean, or resident (R175, R193). -/
def State.unclean (s : State) (home : Nat) (cells : List (Nat × Byte)) (poison nonres : Bool) : State :=
  if poison || nonres then
    { s with cores := s.cores.map fun (kc : Nat × Core) => (kc.1, { kc.2 with cmds := kc.2.cmds.map fun m =>
      { m with clean := if poison then uncoverLines m.clean home cells else m.clean
               present := if nonres then uncoverLines m.present home cells else m.present } }) }
  else s

/-- Bytes of a command written to scratchpad (R175, R193): a destination no longer valid gives ERROR, and a
line that the command has now written whole, in pieces, loses its poison and non-resident bits. -/
def State.cmdWrite (s : State) (c : Nat) (m : Cmd) (p : Place) (l : List Byte)
    (poison nonres : Bool) : State :=
  let st : Word := (if poison then bsPOISON else 0) ||| (if nonres then bsNONRES else 0)
  match s.spot c m p l.length with
  | none => s.cmdStatus c m.seq (st ||| bsERROR)
  | some (home, a) =>
    let cells := cellsAt a l
    let m' := ((s.core c).cmds.find? fun y => decide (y.seq = m.seq)).getD m
    let clean := if poison then m'.clean else coverLines m'.clean home cells
    let present := if nonres then m'.present else coverLines m'.present home cells
    ((((s.writeSpad (s.cmdWriter c m) home cells poison nonres).clearLines home
      (if poison then [] else wholeLines clean home cells)
      (if nonres then [] else wholeLines present home cells)).modCmd c m.seq fun y =>
        { y with clean, present }).unclean home cells poison nonres).cmdStatus c m.seq st

/-- The process group of a command's launch (R394). -/
def State.cmdPg (s : State) (m : Cmd) : PGroup :=
  match s.launch? m.launch with
  | some l => l.pg
  | none => {}

/-- Whether a command is a collective that joins an entry: it gathers its source in a buffer of its own
before it contributes (R399, R400). -/
def Cmd.gathers (m : Cmd) : Bool := decide (7 ≤ m.op ∧ m.op ≤ 9 ∧ m.n 10 ≠ 1)

/-- Whether a command is an RCOPY to another rank (R403). -/
def State.isRemote (s : State) (m : Cmd) : Bool := decide (m.op = 12 ∧ m.n 12 ≠ (s.cmdPg m).rank)

/-- Pieces read, cut in two at a position. -/
def cutBox (l : List (Nat × List Byte × Bool × Bool)) (p : Nat) : List (Nat × List Byte × Bool × Bool) :=
  l.flatMap fun x =>
    if x.1 < p ∧ p < x.1 + x.2.1.length then
      [(x.1, x.2.1.take (p - x.1), x.2.2), (p, x.2.1.drop (p - x.1), x.2.2)]
    else [x]

/-- The bytes of a vector as pieces to write, those of its poisoned stretches apart (R193, R399). -/
def vectorBox (l : List Byte) (bad : List (Nat × Nat)) : List (Nat × List Byte × Bool × Bool) :=
  (bad.foldl (fun b r => cutBox (cutBox b r.1) (r.1 + r.2)) [(0, l, false, false)]).map fun x =>
    (x.1, x.2.1, bad.any fun r => decide (r.1 ≤ x.1 ∧ x.1 < r.1 + r.2), false)

/-- Bytes read for a position, kept until they are written; a collective gathers them (R188, R194, R399). -/
def State.gotBytes (s : State) (c : Nat) (m : Cmd) (pos : Nat) (l : List Byte)
    (poison nonres : Bool) : State :=
  if m.gathers then
    s.modCmd c m.seq fun m =>
      { m with
        buf := tblWrite m.buf pos l, bufBad := if poison then m.bufBad ++ [(pos, l.length)] else m.bufBad
        status := m.status ||| (if nonres then bsNONRES else 0) ||| (if poison then bsPOISON else 0) }
  else s.modCmd c m.seq fun m => { m with outbox := m.outbox ++ [(pos, l, poison, nonres)] }

/-- The answer to a read or atomic request reaches its engine: the bytes of the unit at `va`, or the
status of a failure (R193). `pend` gives the position, the length and the address asked for. -/
def State.answer (s : State) (c seq id va : Nat) (unit : List Byte) (poison : Bool) (st : Word) : State :=
  match (s.core c).cmds.find? fun m => decide (m.seq = seq) with
  | none => s
  | some m =>
    match m.pend.find? fun p => decide (p.1 = id) with
    | none => s
    | some (_, pos, len, a) =>
      let s1 := s.modCmd c seq fun m => { m with pend := m.pend.filter fun p => decide (p.1 ≠ id) }
      if m.stopped then s1
      else if st &&& bsERROR ≠ 0 ∧ st &&& bsPOISON = 0 then
        let s2 := s1.cmdStatus c seq bsERROR
        if m.gathers then
          s2.modCmd c seq fun m => { m with buf := tblWrite m.buf pos (List.replicate len 0) }
        else s2
      else
        let nonres := decide (st &&& bsNONRES ≠ 0)
        let l := if nonres then List.replicate len 0 else (unit.drop (a - va)).take len
        let s1 := s1.cmdStatus c seq (st &&& bsERROR)
        s1.gotBytes c m pos l poison nonres

end Sys2Proof.Machine
end

