-- ==== Sys2Proof/Machine/Fetch.lean ====
section
/-!
DEFINITION. Instruction fetch (R366, R367, R408) and words that are no instruction (R54).
-/
namespace Sys2Proof.Machine

/-- The fetched copy of the block that holds an address. -/
def Core.codeFor (x : Core) (asid addr : Nat) : Option Code :=
  x.code.find? fun k => decide (k.asid = asid ∧ k.block = addr / 64)

/-- The word at an address of a fetched block (R12). -/
def Code.word (k : Code) (addr : Nat) : DWord :=
  BitVec.ofNat 64 (leNat ((k.bytes.drop (addr % 64)).take 8))

/-- What stands at an address as a core sees it. -/
inductive Fetched where
  /-- The core holds no copy of this block. -/
  | missing (block : Nat)
  /-- The fetch of a block of the word failed: 1 poison or quarantine, 8 or 9 the reason of R54. -/
  | failed (code : Nat)
  /-- A word that is no instruction, by its reason. -/
  | illegal (reason : Nat)
  | instr (i : Instr)
deriving DecidableEq, Repr

/-- Whether a word takes a literal from the next word: LX = 1 in format V or S (R40). -/
def takesLiteral (w : DWord) : Bool :=
  wLx w == 1 &&
    match decodeOp w 0 with
    | none => false
    | some i =>
      match form i with
      | .v _ _ => true
      | .s _ _ => true
      | _ => false

/-- A word and its literal read as an instruction (R54). -/
def readWord (w lit : DWord) (foot : Nat) : Fetched :=
  match decode w lit foot with
  | .ok i => .instr i
  | .error r => .illegal r.code

/-- What stands at an address for a group of a footprint (R42, R54, R408). -/
def Core.fetched (x : Core) (asid pc foot : Nat) : Fetched :=
  match x.codeFor asid pc with
  | none => .missing (pc / 64)
  | some k =>
    if k.fail ≠ 0 then .failed k.fail
    else
      let w := k.word pc
      if takesLiteral w then
        let a := (addr56 (pc + 8)).toNat
        match x.codeFor asid a with
        | none => .missing (a / 64)
        | some l => if l.fail ≠ 0 then .failed l.fail else readWord w (l.word a) foot
      else readWord w 0 foot

/-- In diagnostic fixed-latency mode no instructions are fetched for an ASID, but for groups under it that
have issued ICINV: the core holds the whole code object since the block started (R335, log entry 65). -/
def State.noFetch (s : State) (core asid : Nat) : Bool :=
  s.fixlat && !((s.core core).groups.any fun kg => !kg.2.icinv.isEmpty && (match s.block? core kg.2.block with
    | some k => k.asid == asid
    | none => false))

/-- INSTRUCTION_FETCH (R335, R366): the core begins to fetch a block for an ASID that one of its blocks runs
under, unless it holds the block or fetches it already. -/
def execInstructionFetch (core asid block : Nat) (s : State) : Out :=
  let x := s.core core
  match x.blocks.find? fun kb => decide (kb.2.asid = asid) with
  | none => s.noEvent
  | some kb =>
    if (x.codeFor asid (64 * block)).isSome ∨ 2 ^ 50 ≤ block ∨ s.noFetch core asid = true ∨
        (x.fetches.any fun f => decide (f.asid = asid ∧ f.block = block ∧ f.dropped = false)) then
      s.noEvent
    else
      let (n, s1) := s.freshUid
      .next (s1.modCore core fun x =>
        { x with fetches := x.fetches ++ [{ id := n, vf := kb.2.vf, asid := asid, block := block }] })

/-- What a fetch brings: the block, or the failure that its words report (R408). -/
def fetchResult (f : Fetch) (r : Except Word (List Byte × Bool)) : Code :=
  match r with
  | .error w => { asid := f.asid, block := f.block, bytes := [], fail := if w = bsNONRES then 9 else 8 }
  | .ok (_, true) => { asid := f.asid, block := f.block, bytes := [], fail := 1 }
  | .ok (l, false) => { asid := f.asid, block := f.block, bytes := l }

/-- Whether a write or atomic to the unit at an address has arrived at its stop and not performed: a read
that comes later performs after it (R281). -/
def State.unperformed (s : State) (asid vf va : Nat) : Bool :=
  let d := reqDie va
  match ((s.die d).look asid vf va 0).1 with
  | .error _ => false
  | .ok x =>
    if va / 2 ^ 53 % 8 = 4 then
      s.hostReqs.any fun h => decide (h.req.kind ≠ 0 ∧ h.addr / 64 = (x.pa + va % 64) / 64)
    else (s.stop d (stopOfPa x.pa)).inq.any fun r => decide (r.kind ≠ 0 ∧ r.pa = x.pa)

/-- Where the 64-byte block at an address lies, as a fetch of it would find it: die, or 4 for the host, and
physical block. -/
def State.blockAt (s : State) (asid vf va : Nat) : Option (Nat × Nat) :=
  match ((s.die (reqDie va)).look asid vf va 0).1 with
  | .error _ => none
  | .ok x => some (if va / 2 ^ 53 % 8 = 4 then 4 else reqDie va, (x.pa + va % x.unit) / 64)

/-- Whether some command has written a part of the 64-byte block at a place and has still to write another: a
fetch brings the old contents of the whole block or the new ones (R368). -/
def State.halfWritten (s : State) (at_ : Nat × Nat) : Bool :=
  (s.fly.any fun f => decide (f.part = some at_)) ||
    s.cores.any fun kc => kc.2.cmds.any fun m =>
      (m.wrote.any fun b => b.2 == at_) && (!m.rest.isEmpty || !m.pend.isEmpty || !m.outbox.isEmpty)

/-- A fetch performs at its block's home; none while it cannot (R281, R368). -/
def State.performFetch (s : State) (core : Nat) (f : Fetch) : Option (Code × State) :=
  if (s.blockAt f.asid f.vf (64 * f.block)).any s.halfWritten || s.unperformed f.asid f.vf (64 * f.block) ||
      s.unperformed f.asid f.vf (64 * f.block + 32) then none
  else
    let (r, t) := s.readBytes core f.asid f.vf 3 (64 * f.block) 64
    some (fetchResult f r, t)

/-- A fetch returns with what it read: the block is held, or is discarded (R366, R367). -/
def State.fetchBack (s : State) (core : Nat) (f : Fetch) (k : Code) : State :=
  s.modCore core fun x =>
    { x with
      fetches := x.fetches.filter fun g => decide (g.id ≠ f.id)
      code := if f.dropped || (x.codeFor f.asid (64 * f.block)).isSome then x.code else x.code ++ [k] }

/-- FETCH_RETURN (R366, R367, R368, R408): a fetch performs, at any time before it returns, and returns with
the block, which the core holds unless an ICINV and a FENCE have discarded it. Whether one that has not
performed does so now and returns later, or both at once, is left free. -/
def execFetchReturn (core fetch : Nat) (s : State) : Out :=
  match (s.core core).fetches.find? fun f => decide (f.id = fetch) with
  | none => s.noEvent
  | some f =>
    match f.got with
    | some k => .next (s.fetchBack core f k)
    | none =>
      match s.performFetch core f with
      | none => s.noEvent
      | some (k, s1) =>
        let (n, s2) := s1.freshFree
        if Config.freeBool n then
          .next (s2.modCore core fun x => { x with fetches := x.fetches.map fun g =>
            if g.id = fetch then { g with got := some k } else g })
        else .next (s2.fetchBack core f k)

/-- In diagnostic fixed-latency mode the whole code object of a group program is loaded into a core before
the first packet of a block, in place of what the core holds of it (R335). -/
def State.loadCode (s : State) (core vf : Nat) (o : CodeObj) : State :=
  if s.fixlat ∧ o.bytes ≠ [] then
    (rangeFrom (o.addr / 64) ((o.addr + o.bytes.length - 1) / 64 + 1 - o.addr / 64)).foldl (fun t b =>
      let (r, u) := t.readBytes core o.asid vf 3 (64 * b) 64
      u.modCore core fun x =>
        { x with code := (x.code.filter fun k => decide ¬(k.asid = o.asid ∧ k.block = b)) ++
            [fetchResult { id := 0, vf := vf, asid := o.asid, block := b } r] }) s
  else s

/-- The failed fetches of the blocks of the word at an address forgotten: they are fetched anew when the
word issues again (R408). -/
def Core.dropFailed (x : Core) (asid pc : Nat) : Core :=
  { x with code := x.code.filter fun k => !(decide (k.asid = asid ∧ k.fail ≠ 0 ∧
      (k.block = pc / 64 ∨ k.block = (addr56 (pc + 8)).toNat / 64))) }

/-- ILLEGAL_WORD (R54, R408): the word at the issuing split's PC traps ILLEGAL with its reason. -/
def execIllegalWord (reason : Nat) (s : State) : Out :=
  s.issue fun cx =>
    if 1 ≤ reason ∧ reason ≤ 9 then
      (s.modCore cx.core fun x => x.dropFailed cx.blk.asid cx.sp.pc.toNat).trap cx cILLEGAL
        (BitVec.ofNat 32 reason)
    else s.noEvent

/-- The word at the issuing split's PC met poison or quarantine when it was fetched (R408). -/
def fetchPoison (s : State) : Out :=
  s.issue fun cx =>
    (s.modCore cx.core fun x => x.dropFailed cx.blk.asid cx.sp.pc.toNat).trap cx cPOISON
      (BitVec.ofNat 32 (127 + 2 ^ 11))

end Sys2Proof.Machine
end

