-- ==== Sys2Proof/Machine/Place.lean ====
section
/-!
DEFINITION. The start of a block on a core: room, allocation, registers and first splits (R83, R170,
R171, R215, R240).
-/
namespace Sys2Proof.Machine

/-- A group to be started: GROUPID, launched lanes, register footprint, entry and start words. -/
structure NewGroup where
  gid : Nat
  lanes : Nat
  foot : Nat
  entry : DWord
  words : List Word

/-- The size of an allocation: a multiple of 512, at least 512 (R171). -/
def allocSize (n : Nat) : Nat := Nat.max 512 ((n + 511) / 512 * 512)

/-- Whether `size` bytes at `base` are free on a core; the range of a saved block that must return to its
slot is kept for it (R247). -/
def Core.rangeFree (x : Core) (base size : Nat) : Bool :=
  decide (base + size ≤ 1048576) &&
    (x.blocks.all fun kb => decide (base + size ≤ kb.2.base ∨ kb.2.base + kb.2.size ≤ base)) &&
    x.saved.all fun v => !v.block.pinSlot ||
      decide (base + size ≤ v.block.base ∨ v.block.base + v.block.size ≤ base)

/-- The base that an allocation takes: the lowest at which it fits, 0 or the end of another one (DESIGN CHOICE, log
entry 80; R171 asks for a multiple of 512 alone). -/
def Core.allocAt (x : Core) (size : Nat) : Option Nat :=
  ((0 :: x.blocks.map fun kb => kb.2.base + kb.2.size) ++
    x.saved.map fun v => v.block.base + v.block.size).foldl (fun best b =>
    if x.rangeFree b size then
      match best with
      | none => some b
      | some a => some (Nat.min a b)
    else best) none

/-- Registers in use, of 768 (R82, R170). -/
def Core.regsUsed (x : Core) : Nat := x.groups.foldl (fun n kg => n + kg.2.foot) 0

/-- The free resident-block slot of lowest number; slots of saved blocks that must return to them are
kept (R204, R247). -/
def Core.freeSlot (x : Core) : Option Nat :=
  leastFrom (fun b => (tfind? x.blocks b).isNone && !(x.saved.any fun v => v.slot == b && v.block.pinSlot)) 0 16

/-- Whether a core has room for a block of `n` groups of `foot` registers and `size` bytes (R230, R240,
R376). -/
def Core.hasRoom (x : Core) (n foot size : Nat) : Bool :=
  decide (x.groups.length + n ≤ 16 ∧ x.regsUsed + n * foot ≤ 768) && (x.allocAt size).isSome &&
    x.freeSlot.isSome && decide ((x.placesUsed.filter (· < 62)).eraseDups.length + n ≤ 62)

/-- A group in its first state (R79, R83, R143). -/
def firstGroup (g : NewGroup) (uid block place cycle : Nat) : Group :=
  let start := (rangeFrom 0 (Nat.min 16 g.words.length)).foldl (fun t i => tset 0 t i (g.words.getD i 0)) []
  { uid, gid := g.gid, block, nlanes := g.lanes, foot := g.foot
    regs := { s := start }
    splits := [{ place, exec := presentMask g.lanes, domain := presentMask g.lanes, pc := g.entry
                 age := BitVec.ofNat 32 cycle }] }

/-- One group started (R240), in the lowest free slot of its core (DESIGN CHOICE, log entry 80). -/
def State.startGroup (s : State) (c block : Nat) (g : NewGroup) : State :=
  let x := s.core c
  let slot := (leastFrom (fun k => (tfind? x.groups k).isNone) 0 16).getD 0
  let place := (x.freePlace 0 62).getD 0
  let (uid, t) := s.freshUid
  t.modCore c fun x => { x with groups := tput x.groups slot (firstGroup g uid block place (s.cycle c)) }

/-- The scratchpad of an allocation at block start: the spad image and zeros above it (R171). -/
def Core.loadSpad (x : Core) (base size : Nat) (image : List Byte) : Core :=
  { x with
    spad := tblWrite (x.spad.filter fun kv => !decide (base ≤ kv.1 ∧ kv.1 < base + size)) base
      (image.take size)
    poison := x.poison.filter fun kv => !decide (base / 32 ≤ kv.1 ∧ kv.1 < (base + size) / 32)
    nonres := x.nonres.filter fun kv => !decide (base / 32 ≤ kv.1 ∧ kv.1 < (base + size) / 32) }

/-- Whether a checkpoint holds a VF: in progress, or its scope left pre-empted (R380). -/
def State.ckptHolds (s : State) (vf : Nat) : Bool :=
  match s.ckpt with
  | some k => k.whole || k.vf == vf
  | none => false

/-- A block started on a core with room, its groups in increasing GROUPID order: the state and the slot.
`b` gives everything but the base. -/
def State.startBlock (s : State) (c : Nat) (b : Block) (gs : List NewGroup) : Option State :=
  let x := s.core c
  match x.allocAt b.size, x.freeSlot with
  | some base, some slot =>
    let foot := gs.foldl (fun n g => Nat.max n g.foot) 0
    if x.hasRoom gs.length foot b.size ∧ !s.ckptHolds b.vf ∧ !(s.fn b.vf).resetting then
      let image := match s.object? b.launch with
        | some o => o.image
        | none => []
      let (uid, s1) := s.freshUid
      let s2 := s1.modCore c fun x =>
        { (x.loadSpad base b.size image) with
          blocks := tput x.blocks slot { b with uid, base, groups := gs.length }
          tables := if x.tables.contains b.launch then x.tables else x.tables ++ [b.launch]
          gated := false
          epoch := if x.gated then s.now else x.epoch }
      let s3 := gs.foldl (fun t g => t.startGroup c slot g) (match s.object? b.launch with
        | some o => s2.loadCode c b.vf o
        | none => s2)
      some ((s3.openInterval c slot).rankBlock c slot)
    else none
  | _, _ => none

end Sys2Proof.Machine
end

