-- ==== Sys2Proof/Machine/Image.lean ====
section
/-!
DEFINITION. Context images: the layouts of R234 and R235, written and read.
-/
namespace Sys2Proof.Machine

/-! ### Group images (R143, R234, R235) -/

/-- The number of a group's words: `n` bytes of an image from an offset, little-endian. -/
def imgNat (l : List Byte) (off n : Nat) : Nat := leNat ((l.drop off).take n)

/-- A word of an image. -/
def imgWord (l : List Byte) (off : Nat) : Word := BitVec.ofNat 32 (imgNat l off 4)

/-- Bits hi to lo of a number. -/
def nbits (n hi lo : Nat) : Nat := n / 2 ^ lo % 2 ^ (hi + 1 - lo)

/-- A rejoin register in the layout of R88. -/
def rejoinBytes (r : Rejoin) : List Byte :=
  natLe (r.expected.toNat + r.arrived.toNat * 2 ^ 96 + r.sfmt.toNat * 2 ^ 192 + r.state * 2 ^ 224) 32

/-- A rejoin register read; STATE 3 is read as idle, and a release starts anew (R88). -/
def readRejoin (n now : Nat) : Rejoin :=
  let e : LaneMask := BitVec.ofNat 96 n
  let a : LaneMask := BitVec.ofNat 96 (n / 2 ^ 96)
  let st := nbits n 225 224
  { state := if st = 3 then 0 else st, sfmt := BitVec.ofNat 32 (n / 2 ^ 192), expected := e, arrived := a
    start := if st = 2 then now else 0, partialRel := decide (st = 2 ∧ a ≠ e) }

/-- A split entry in the layout of R143. -/
def splitNum (slot : Nat) (p : Split) : Nat :=
  p.exec.toNat + p.domain.toNat * 2 ^ 96 + p.pc.toNat * 2 ^ 192 + p.fmt.toNat * 2 ^ 256 +
    p.s56.toNat * 2 ^ 288 + p.s57.toNat * 2 ^ 320 + p.s58.toNat * 2 ^ 352 + p.s59.toNat * 2 ^ 384 +
    p.dwait * 2 ^ 423 + p.pwait * 2 ^ 426 + p.wj * 2 ^ 429 + p.wait * 2 ^ 432 + p.id * 2 ^ 435 +
    slot * 2 ^ 442 + p.prio.toNat * 2 ^ 446 + 2 ^ 447 + p.age.toNat * 2 ^ 448

/-- A WAIT of an image; 6 and 7 are read as 0 (R143). -/
def waitOf (w : Nat) : Nat := if 6 ≤ w then 0 else w

/-- A split entry read. It holds no CYCLE_HI latch, which reads 0 then (log entry 3). -/
def readSplit (n : Nat) (handler : Bool) : Split :=
  { id := nbits n 441 435, wait := waitOf (nbits n 434 432), wj := nbits n 431 429
    pwait := waitOf (nbits n 428 426), dwait := waitOf (nbits n 425 423), prio := n.testBit 446
    age := BitVec.ofNat 32 (n / 2 ^ 448)
    s56 := BitVec.ofNat 32 (n / 2 ^ 288), s57 := BitVec.ofNat 32 (n / 2 ^ 320)
    s58 := BitVec.ofNat 32 (n / 2 ^ 352), s59 := BitVec.ofNat 32 (n / 2 ^ 384)
    fmt := BitVec.ofNat 32 (n / 2 ^ 256), exec := BitVec.ofNat 96 n, domain := BitVec.ofNat 96 (n / 2 ^ 96)
    pc := BitVec.ofNat 64 (n / 2 ^ 192), handler }

/-- A posted receive in 32 bytes: MIN of the instruction, channel, destination and status registers,
participants and posting split. -/
def postedBytes (p : Posted) : List Byte :=
  natLe (if p.isV then 4 else 2) 4 ++ natLe p.chan 4 ++ natLe p.dst 4 ++ natLe p.sa 4 ++ natLe p.lanes.toNat 12 ++
    natLe p.split 4

/-- The splits of a group as an image lists them: ordinary ones by id, then the handler's (R234). -/
def Group.savedSplits (g : Group) : List Split :=
  let ord (b : Bool) : List Split :=
    (rangeFrom 0 128).flatMap fun i => g.splits.filter fun p => p.handler == b && p.id == i
  ord false ++ ord true

/-- Bytes padded with zeros, or cut, to a length. -/
def padTo (n : Nat) (l : List Byte) : List Byte := (l ++ List.replicate (n - l.length) 0).take n

/-- The group words (R235). -/
def groupWords (g : Group) : List Byte :=
  natLe g.cvm.toNat 8 ++ natLe g.stat.toNat 4 ++ natLe g.prog.toNat 4 ++ natLe g.cmds.batchNo.toNat 4 ++
    natLe g.cmds.batchDone.toNat 4 ++ natLe g.cmds.t 4 ++ natLe g.cmds.s 4 ++ natLe g.cmds.r 4 ++
    natLe g.cmds.p 4 ++ natLe g.cv.tmo.toNat 4 ++ natLe g.trap.cause 4 ++ natLe g.trap.pc.toNat 8 ++
    natLe g.trap.info.toNat 4 ++ natLe g.padTimer 4 ++
    natLe (g.cmds.unclosed.count + bits g.cmds.unclosed.status 7 0 * 65536) 4 ++ natLe g.mstat.toNat 4 ++
    natLe g.cv.id.toNat 4 ++ natLe g.cv.off.toNat 4 ++ natLe g.cv.stat.toNat 4 ++ natLe g.saves 4 ++
    natLe 0 40

/-- Status words of batches BATCHNO − 63 to BATCHNO (R197, R234). -/
def batchWords (k : GCmds) : List Byte :=
  (rangeFrom 0 64).flatMap fun i =>
    natLe (k.statusWord (k.batchNo - BitVec.ofNat 32 (63 - i))).toNat 4

/-- The image of a group (R234). -/
def groupImage (slot : Nat) (k : Block) (g : Group) : List Byte :=
  let sp := g.savedSplits
  let h := (g.splits.filter fun p => p.handler).length
  natLe (1 + g.foot / 8 * 256 + g.nlanes * 65536 + sp.length * 2 ^ 24) 4 ++
    natLe (g.gid + k.blockId * 16 + k.depth * 64 + g.trap.active.toNat * 512 + k.task.isSome.toNat * 1024 +
      k.committed.toNat * 2048 + h * 4096) 4 ++ natLe 0 56 ++
    ((rangeFrom 0 56).flatMap fun i => natLe (tget 0 g.regs.s i).toNat 4) ++
    ((rangeFrom 1 7).flatMap fun i => natLe (tget 0 g.regs.k i).toNat 12) ++ natLe 0 12 ++
    ((rangeFrom 0 8).flatMap fun i => rejoinBytes (tget {} g.j i)) ++
    ((rangeFrom 0 8).flatMap fun i => rejoinBytes (if g.trap.active then tget {} g.trap.jshadow i else {})) ++
    groupWords g ++ batchWords g.cmds ++ padTo 256 (g.q.posted.flatMap postedBytes) ++
    padTo 12288 (sp.flatMap fun p => natLe (splitNum slot p) 64) ++
    (rangeFrom 0 g.foot).flatMap fun r => (rangeFrom 0 96).flatMap fun l => natLe (tget 0 g.regs.v (96 * r + l)).toNat 4

/-- The length of a group image (R234). -/
def groupLen (foot : Nat) : Nat := 0x3600 + 384 * foot

/-- A table from `n` words of an image. -/
def readTbl (l : List Byte) (off n base : Nat) : Tbl Word :=
  (rangeFrom 0 n).foldl (fun t i => tset 0 t (base + i) (imgWord l (off + 4 * i))) []

/-- Rejoin registers of an image. -/
def readRejoins (l : List Byte) (off now : Nat) : Tbl Rejoin :=
  (rangeFrom 0 8).foldl (fun t i => tset {} t i (readRejoin (imgNat l (off + 32 * i) 32) now)) []

/-- The batches of an image (R197). -/
def readBatches (l : List Byte) (no : Word) : Tbl Batch :=
  (rangeFrom 0 64).foldl (fun t i =>
    let n := no - BitVec.ofNat 32 (63 - i)
    let w := imgWord l (0x400 + 4 * i)
    if w.getLsbD 6 || w.getLsbD 7 then t
    else tput t n.toNat { count := bits w 23 16, status := w &&& 0x13E }) []

/-- Posted receives of an image. Of the `i`-th of `old`, as the record of the save has them, a receive keeps which
of two splits of one id posted it, and whether that lives (R83, R142). -/
def readPosted (l : List Byte) (old : List Posted) : List Posted :=
  ((rangeFrom 0 8).filter fun i => imgNat l (0x500 + 32 * i) 4 ≠ 0).map fun i =>
    let o := 0x500 + 32 * i
    { num := i, chan := imgNat l (o + 4) 4, isV := decide (imgNat l o 4 = 4), dst := imgNat l (o + 8) 4
      sa := imgNat l (o + 12) 4, lanes := BitVec.ofNat 96 (imgNat l (o + 16) 12), split := imgNat l (o + 28) 4
      handler := (old[i]?).any (·.handler), gone := (old[i]?).any (·.gone) }

/-- The splits of an image: the last `h` of them are the handler's. -/
def readSplits (l : List Byte) (n h : Nat) : List Split :=
  (rangeFrom 0 n).map fun i => readSplit (imgNat l (0x600 + 64 * i) 64) (decide (n - h ≤ i))

/-- The group of an image; `base` gives what an image does not hold. -/
def readGroup (base : Group) (l : List Byte) (now : Nat) : Group :=
  let w0 := imgWord l 0
  let w1 := imgWord l 4
  let no := imgWord l 0x390
  let un := imgNat l 0x3C0 4
  let active := w1.getLsbD 9
  let sp := readSplits l (bits w0 31 24) (bits w1 19 12)
  { base with
    gid := bits w1 3 0, nlanes := bits w0 22 16, foot := 8 * bits w0 15 8
    regs := { s := readTbl l 0x40 56 0
              k := (rangeFrom 0 7).foldl (fun t i =>
                tset 0 t (i + 1) (BitVec.ofNat 96 (imgNat l (0x120 + 12 * i) 12))) []
              v := readTbl l 0x3600 (96 * (8 * bits w0 15 8)) 0 }
    j := readRejoins l 0x180 now
    splits := sp
    cvm := BitVec.ofNat 64 (imgNat l 0x380 8), stat := imgWord l 0x388, prog := imgWord l 0x38C
    trap := { base.trap with
      cause := imgNat l 0x3AC 4, pc := BitVec.ofNat 64 (imgNat l 0x3B0 8), info := imgWord l 0x3B8
      active, jshadow := if active then readRejoins l 0x280 now else [] }
    cmds := { base.cmds with
      batchNo := no, batchDone := imgWord l 0x394, batches := readBatches l no
      unclosed := { base.cmds.unclosed with open_ := 0, count := un % 65536, status := BitVec.ofNat 32 (un / 65536 % 256) }
      t := imgNat l 0x398 4, s := imgNat l 0x39C 4, r := imgNat l 0x3A0 4, p := imgNat l 0x3A4 4, fences := [] }
    cv := { base.cv with id := imgWord l 0x3C8, off := imgWord l 0x3CC, stat := imgWord l 0x3D0
                         tmo := imgWord l 0x3A8, bound := none }
    q := { base.q with stores := [], out := [], loads := [], posted := readPosted l base.q.posted }
    padTimer := imgNat l 0x3BC 4, mstat := imgWord l 0x3C4, saves := imgNat l 0x3D4 4
    resv := [], claimed := false, ended := false }

/-! ### What is ignored or normalised on restore (R88, R143, R236) -/

/-- A rejoin register's number without its ignored bits, STATE 3 as idle. -/
def normRejoin (n : Nat) : Nat := if nbits n 225 224 = 3 then n % 2 ^ 224 else n % 2 ^ 226

/-- A split entry's number without its ignored bits and GROUP, each WAIT of 6 or 7 as 0. -/
def normSplit (n : Nat) : Nat :=
  let clear (n hi lo : Nat) : Nat := n - nbits n hi lo * 2 ^ lo
  let w (n lo : Nat) : Nat := if 6 ≤ nbits n (lo + 2) lo then clear n (lo + 2) lo else n
  clear (clear (w (w (w n 432) 426) 423) 445 442) 422 416 % 2 ^ 480

/-- Chunks of `w` bytes mapped as numbers. -/
def mapChunks (w : Nat) (f : Nat → Nat) : Nat → List Byte → List Byte
  | 0, l => l
  | n + 1, l => natLe (f (leNat (l.take w))) w ++ mapChunks w f n (l.drop w)

/-- A group image as a restore reads it. -/
def normGroup (l : List Byte) : List Byte :=
  l.take 0x180 ++ mapChunks 32 normRejoin 16 ((l.drop 0x180).take 512) ++ (l.drop 0x380).take 640 ++
    mapChunks 64 normSplit 192 ((l.drop 0x600).take 12288) ++ l.drop 0x3600

/-- Whether a list has no repeats. -/
def distinct (l : List Nat) : Bool := l.eraseDups.length == l.length

/-- Whether the domains of splits are disjoint. -/
def disjointDomains : List Split → Bool
  | [] => true
  | p :: l => (l.all fun q => decide (p.domain &&& q.domain = 0)) && disjointDomains l

/-- Whether the splits of one kind are as the device makes them (R236). -/
def splitsOk (nlanes : Nat) (l : List Split) : Bool :=
  distinct (l.map (·.id)) && disjointDomains l && l.all fun p =>
    decide (p.id ≤ 95 ∧ p.domain ≠ 0 ∧ p.domain &&& ~~~presentMask nlanes = 0 ∧ p.exec &&& ~~~p.domain = 0 ∧
      p.pc.toNat < 2 ^ 56 ∧ p.pc.toNat % 8 = 0)

/-- Whether the registers of a restored group hold values that the device produces: TRAPCAUSE and the
reserved bits of its words (R62, R90, R91, R276, R300), and counters of a group whose commands have all
completed (R200, R233). -/
def Group.wordsOk (g : Group) : Bool :=
  decide (g.trap.cause ≤ 0x12 ∧ g.trap.pc.toNat < 2 ^ 56 ∧ g.trap.pc.toNat % 8 = 0 ∧ g.cvm.toNat < 2 ^ 48 ∧
    g.stat.toNat < 64 ∧ g.mstat &&& 0x00F00F00 = 0 ∧ g.cv.stat &&& 0x00000F8F = 0 ∧ g.cmds.p = 0 ∧
    g.cmds.r = g.q.posted.length) &&
    g.q.posted.all fun p => decide (p.chan ≤ 63 ∧ p.sa < 64 ∧ p.dst < 64 ∧ p.split ≤ 95)

/-- Whether a group image holds nothing that the device never produces (R236): its fields are in range,
and the group it gives would be written as it stands. A task has depth 1 to 4, and nothing else has one. -/
def groupOk (k : Block) (l : List Byte) : Bool :=
  let g := readGroup {} l 0
  let w1 := imgWord l 4
  let ordinary := g.splits.filter fun p => !p.handler
  let handler := g.splits.filter fun p => p.handler
  decide (imgNat l 0 1 = 1 ∧ 8 ≤ g.foot ∧ g.foot ≤ 128 ∧ 1 ≤ g.nlanes ∧ g.nlanes ≤ 96 ∧ g.saves ≤ 255) &&
    decide (bits w1 8 6 ≤ 4 ∧ (bits w1 8 6 ≠ 0 ↔ k.task.isSome)) && g.wordsOk &&
    !ordinary.isEmpty && (handler.isEmpty != g.trap.active) && splitsOk g.nlanes ordinary &&
    splitsOk g.nlanes handler && decide (normGroup l =
      normGroup (groupImage 0 { k with depth := bits w1 8 6 } g))

/-! ### Block images (R235) -/

/-- A multiple of `m` not below `n`. -/
def roundUp (n m : Nat) : Nat := (n + m - 1) / m * m

/-- The bound channels of a block, in channel order. -/
def Core.chansOf (x : Core) (b : Nat) : List (Nat × Chan) :=
  x.chans.filter fun kc => decide (kc.2.block = b ∧ kc.2.state ≠ 0)

/-- A message in the backing of an image: its receive status word and payload (R206, R235). -/
def backedBytes (gen : Nat) (m : Msg) : List Byte :=
  natLe (recvStatus gen m.src m.payload.length).toNat 4 ++ natLe 0 4 ++
    padTo 384 (m.payload.flatMap fun w => natLe w.toNat 4)

/-- CHANS and BACKING of an image. -/
def chanBytes (l : List (Nat × Chan)) : List Byte :=
  (l.flatMap fun kc => natLe kc.1 4 ++ natLe kc.2.gen 4 ++ natLe kc.2.msgs.length 4 ++
    natLe kc.2.backing.length 4) ++
  l.flatMap fun kc => (kc.2.msgs ++ kc.2.backing).flatMap (backedBytes kc.2.gen)

/-- The offset of ALLOC: room for every message that a channel and its backing can hold (R204). -/
def allocOff (seals chans : Nat) : Nat := roundUp (64 + 16 * seals + (16 + 392 * 260) * chans) 512

/-- BHEADER (R235). -/
def blockHeader (c slot : Nat) (k : Block) (groups chans len : Nat) : List Byte :=
  let alloc := allocOff k.seals.length chans
  natLe (1 + groups * 256 + k.seals.length * 2 ^ 13 + chans * 2 ^ 18) 4 ++
    natLe (k.size / 512 + k.padN * 2 ^ 12 + k.task.isSome.toNat * 2 ^ 19 + k.committed.toNat * 2 ^ 20) 4 ++
    natLe (k.blockId + k.gangSize * 4) 4 ++ natLe k.gang 4 ++ natLe k.launch 4 ++
    natLe (dieOf c + clusterOf c % 16 * 4 + coreNo c * 64 + slot * 256 + k.pinSlot.toNat * 2 ^ 12 +
      k.pinCluster.toNat * 2 ^ 13) 4 ++
    natLe (k.vf + k.asid * 256 + k.priv.toNat * 2 ^ 16) 4 ++
    natLe (match k.trapEntry with
      | some e => e + 64
      | none => 0) 4 ++
    natLe alloc 8 ++ natLe (alloc + k.size) 8 ++ natLe len 8 ++ natLe 0 8

/-- The seal entries of an image. -/
def sealBytes (l : List (Nat × Nat)) : List Byte :=
  l.flatMap fun e => natLe e.1 4 ++ natLe e.2 4 ++ natLe 0 8

/-- A block's allocation as it is read whole: the scratchpad bytes, and in its paddock the entry of each
dormant split in the layout of R143 (R145). A dormant split is kept once, in its group. -/
def State.allocBytes (s : State) (c : Nat) (k : Block) (gs : List (Nat × Group)) : List Byte :=
  (gs.flatMap fun kg => (kg.2.splits.filter fun p => decide (64 ≤ p.place)).map fun p => (kg.1, p)).foldl
    (fun l gp =>
      let at_ := k.size - 64 * (k.padN - (gp.2.place - 64))
      l.take at_ ++ natLe (splitNum gp.1 gp.2) 64 ++ l.drop (at_ + 64))
    (tblBytes (s.core c).spad k.base k.size)

/-- The image of a block: `gs` are its groups with their slots, in GROUPID order (R235). -/
def State.blockImage (s : State) (c b : Nat) (k : Block) (gs : List (Nat × Group)) : List Byte :=
  let ch := (s.core c).chansOf b
  let g := gs.flatMap fun kg => groupImage kg.1 k kg.2
  let alloc := allocOff k.seals.length ch.length
  padTo alloc (blockHeader c b k gs.length ch.length (alloc + k.size + g.length) ++ sealBytes k.seals ++
    chanBytes ch) ++ s.allocBytes c k gs ++ g

/-- The seal entries read from an image. -/
def readSeals (l : List Byte) (n : Nat) : List (Nat × Nat) :=
  (rangeFrom 0 n).map fun i => (imgNat l (64 + 16 * i) 4, imgNat l (68 + 16 * i) 4)

/-- The block of an image; `base` gives what an image does not hold. -/
def readBlock (base : Block) (l : List Byte) : Block :=
  let w := fun i => imgWord l (4 * i)
  { base with
    vf := bits (w 6) 5 0, asid := bits (w 6) 15 8, priv := (w 6).getLsbD 16, launch := (w 4).toNat
    gang := (w 3).toNat, blockId := bits (w 2) 1 0, gangSize := bits (w 2) 4 2, size := 512 * bits (w 1) 11 0
    padN := bits (w 1) 18 12, trapEntry := if (w 7).getLsbD 6 then some (bits (w 7) 5 0) else none
    seals := readSeals l (bits (w 0) 17 13), committed := (w 1).getLsbD 20, pinSlot := (w 5).getLsbD 12
    pinCluster := (w 5).getLsbD 13, preempt := false, rolling := none, ended := false
    groups := bits (w 0) 12 8 }

/-- The group images of a block image: `n` of them from an offset, each of the length its header gives. -/
def cutGroups : Nat → List Byte → List (List Byte)
  | 0, _ => []
  | n + 1, l =>
    let len := groupLen (8 * bits (imgWord l 0) 15 8)
    l.take len :: cutGroups n (l.drop len)

/-- The core and slot that a block image left. -/
def imgCore (l : List Byte) : Nat :=
  let w := imgWord l 20
  64 * bits w 1 0 + 4 * bits w 5 2 + bits w 7 6
def imgSlot (l : List Byte) : Nat := bits (imgWord l 20) 11 8

/-- Whether GROUPIDs rise. -/
def rising : List Nat → Bool
  | a :: b :: l => decide (a < b) && rising (b :: l)
  | _ => true

/-- Whether a block image holds nothing that the device never produces (R236). -/
def imageOk (l : List Byte) : Bool :=
  let k := readBlock {} l
  let chans := bits (imgWord l 0) 23 18
  let gs := cutGroups k.groups (l.drop (allocOff k.seals.length chans + k.size))
  let task := if (imgWord l 4).getLsbD 19 then some (0, 0, 0) else none
  let k1 := { k with task }
  decide (imgNat l 0 1 = 1 ∧ 1 ≤ k.groups ∧ k.groups ≤ 16 ∧ k.seals.length ≤ 16 ∧ chans ≤ 63 ∧ 512 ≤ k.size ∧
    k.size ≤ 1048576 ∧ 64 * k.padN ≤ k.size ∧ k.padN ≤ 96 ∧ k.blockId < k.gangSize ∧ k.gangSize ≤ 4 ∧
    (k.committed → task.isSome) ∧ (chans ≠ 0 → k.pinSlot)) &&
    decide (l.take 64 = blockHeader (imgCore l) (imgSlot l) k1 k.groups chans l.length) &&
    decide ((l.drop 64).take (16 * k.seals.length) = sealBytes k.seals) &&
    (gs.all fun g => groupOk k1 g) && rising (gs.map fun g => bits (imgWord g 4) 3 0)

/-! ### The area (R388) -/

/-- Bytes at physical addresses of a die's HBM, sector by sector under granule 0. -/
def State.writePhys (s : State) (d pa : Nat) (l : List Byte) : State :=
  if l = [] then s
  else
    (rangeFrom (pa / 32) ((pa + l.length - 1) / 32 - pa / 32 + 1)).foldl (fun t i =>
      let x := t.die d
      let bytes := (rangeFrom (32 * i) 32).map fun a =>
        if pa ≤ a ∧ a < pa + l.length then l.getD (a - pa) 0
        else tget 0 x.hbm (dramCell (tget 0 x.wgran i) a)
      (t.modDie d fun x =>
        { x.writeUnit {} 0 (32 * i) bytes with plain := tblWrite x.plain (32 * i) bytes }).modStop d
          (stopOfPa (32 * i)) fun y => (y.cleaned (32 * i) 32).closeFolds fun f =>
            decide (f.req.pa ≤ 32 * i ∧ 32 * i < f.req.pa + f.req.unit)) s

/-- Bytes at an offset of the area that CTXADDR names (R388). -/
def State.writeArea (s : State) (a : DWord) (off : Nat) (l : List Byte) : State :=
  if a.getLsbD 63 then s.writePhys (bits a 62 61) (bits a 51 0 + off) l else s.writeHost (bits a 51 0 + off) l

/-- `n` bytes at the start of the area. -/
def State.readArea (s : State) (a : DWord) (n : Nat) : List Byte :=
  let p := bits a 51 0
  if a.getLsbD 63 then
    let x := s.die (bits a 62 61)
    (rangeFrom p n).map fun b => tget 0 x.hbm (dramCell (tget 0 x.wgran (b / 32)) b)
  else tblBytes s.hostMem p n

/-- CHANS and BACKING of a saved block's image written anew after an arrival at one of its channels
(R204). -/
def State.mirrorBacking (s : State) (c slot : Nat) : State :=
  match (s.core c).saved.find? fun v => v.slot == slot && v.block.pinSlot && !v.late with
  | none => s
  | some v =>
    match v.area with
    | none => s
    | some a => s.writeArea a (64 + 16 * v.block.seals.length) (chanBytes ((s.core c).chansOf slot))

end Sys2Proof.Machine
end

