-- ==== Sys2Proof/Machine/Ctx.lean ====
section
/-!
DEFINITION. Pre-emption, context save, restore and discard of blocks (R233, R236, R271, R301, R388).
-/
namespace Sys2Proof.Machine

/-! ### Pre-emption (R233) -/

/-- The groups of a block with their slots, in GROUPID order. -/
def Core.groupsOf (x : Core) (b : Nat) : List (Nat × Group) :=
  (rangeFrom 0 16).flatMap fun i => x.groups.filter fun kg => decide (kg.2.block = b ∧ kg.2.gid = i)

/-- A waiting instruction whose request is out or answered, or whose entry is drained: it is to complete
before its group is saved, since it would ask or drain again. -/
def Split.unanswered (p : Split) : Bool :=
  decide (p.wait = 3) && match p.await with
    | .asked _ => true
    | .answered _ => true
    | .drained => true
    | _ => false

/-- A block pre-empted: it issues no more, its groups are unhitched and its reservations cleared (R152, R233,
R294). -/
def State.preempt (s : State) (c b : Nat) : State :=
  let gs := ((s.core c).groups.filter fun kg => decide (kg.2.block = b)).map (·.1)
  (gs.foldl (fun t g => (t.unhitch c g 3).modGroup c g fun y => y.clearResv (BitVec.allOnes 96)) s).modBlock c b fun k =>
    { k with preempt := true }

/-- Whether a pre-empted block has come to rest: its stores have drained, its loads performed and its commands
completed, and no rollback of it is still to be done (R219, R233, steps 1 and 2). -/
def State.quiet (s : State) (c b : Nat) (k : Block) : Bool :=
  k.rolling.isNone && ((s.core c).groupsOf b).all (fun kg => kg.2.q.stores.isEmpty && kg.2.q.loads.isEmpty && kg.2.q.out.isEmpty &&
    !(kg.2.splits.any Split.unanswered)) &&
    !((s.core c).cmds.any fun m => decide (m.block = b ∧ m.buid = k.uid))

/-- A group as it is saved: no debugger holds it, a trap still pending is given up, and its reservations
are cleared (R152, R233). -/
def Group.settleSave (g : Group) : Group :=
  let sp := g.splits.map Split.letGo
  { g with splits := if g.trap.pending.isSome && !g.trap.active then sp.map Split.thaw else sp
           trap := g.trap.unpend, resv := [], claimed := false
           saves := Nat.min 255 (g.saves + 1) }

/-- Whether a block must return to its core and slot: it holds a bound channel, holds or queues a handle,
or is home of a buffer (R204, R247). -/
def State.mustReturn (s : State) (c b uid : Nat) : Bool :=
  !((s.core c).chansOf b).isEmpty ||
    (rangeFrom (clusterOf c * 4) 4).any fun h => (s.core h).bufs.any fun e => e.2.ofBlock h c b uid

/-- The lines of an allocation that a table marks, relative to its base. -/
def markedLines (t : Tbl Bool) (base size : Nat) : List Nat :=
  (t.filter fun kv => decide (base / 32 ≤ kv.1 ∧ kv.1 < (base + size) / 32)).map fun kv => kv.1 - base / 32

/-- The pre-empted block in a slot made a saved one: entries parked, the image formed; the record and the image
(R233). -/
def State.formSaved (s : State) (c b : Nat) (k : Block) : State × Saved × List Byte :=
  let gs := ((s.core c).groupsOf b).map (·.1)
  let s1 := gs.foldl (fun t g => t.modGroup c g Group.settleSave) (s.parkEntries c k)
  let k1 := { k with
    preempt := false, jrecs := [], grecs := [], gone := []
    pinSlot := s1.mustReturn c b k.uid
    pinCluster := (s1.cluster (clusterOf c)).entries.any fun e => decide (e.buid = k.uid) }
  let s2 := s1.modBlock c b fun _ => k1
  let l := (s2.core c).groupsOf b
  let img := s2.blockImage c b k1 l
  (s2, { slot := b, block := k1, groups := l.map fun kg => (kg.2.gid, kg.2)
         poison := markedLines (s2.core c).poison k1.base k1.size
         nonres := markedLines (s2.core c).nonres k1.base k1.size }, img)

/-- The place of a saved block given up: its groups and block leave the core, and its channels are
swapped (R204, R388). -/
def State.leaveCore (s : State) (c b : Nat) (v : Saved) : State :=
  let gs := ((s.core c).groupsOf b).map (·.1)
  let s1 := s.modCore c fun x =>
    { x with
      groups := x.groups.filter fun kg => decide (kg.2.block ≠ b)
      emptyAt := s.now
      blocks := tdel x.blocks b
      saved := x.saved ++ [v]
      chans := x.chans.map fun kc =>
        if kc.2.block = b ∧ kc.2.state ≠ 0 then (kc.1, { kc.2 with state := 2 }) else kc
      trapOwner := x.trapOwner.filter fun g => !gs.contains g
      dbgHeld := x.dbgHeld.filter fun g => !gs.contains g }
  (s1.moveIn c 62).nextTrap c

/-- A block context-saved into an area of `len` bytes; none when its image does not fit (R233, R388). -/
def State.saveBlock (s : State) (c b : Nat) (area : DWord) (len : Nat) : Option State :=
  match s.block? c b with
  | none => none
  | some k =>
    let (s1, v, img) := s.formSaved c b k
    if img.length ≤ len then
      some ((s1.writeArea area 0 img).leaveCore c b { v with area := some area })
    else none

/-- A block discarded: its commands that have not started are cancelled, its matrix entries dropped and
its groups ended; a task returns to its queue once the block's started commands have completed and its
resources are free (R233, R388). -/
def State.discardBlock (s : State) (c b : Nat) : State :=
  match s.block? c b with
  | none => s
  | some k =>
    let mine := ((s.core c).groups.filter fun kg => decide (kg.2.block = b)).map (·.1)
    let s1 := s.cancelCmds c b fun m => decide (m.startedAt = none)
    let s2 := (s1.parkEntries c k).dropEntries (clusterOf c) fun e => decide (e.core = c ∧ e.buid = k.uid)
    let s3 := s2.modBlock c b fun k => { k with requeue := true }
    mine.foldl (fun t g => t.endGroup c g) s3

/-! ### Restore (R236) -/

/-- A WAIT after a restore: an instruction that waited issues again (R233). -/
def issueAgain (w : Nat) : Nat := if w = 3 ∨ w = 5 then 0 else w

/-- A split as it is restored; an HGIVE that waited in it goes on with its handle, which the block still
holds, when it issues again (R247, R250). -/
def Split.restored (p : Split) (old : List Split) : Split :=
  let w := if p.wait = 5 then p.dwait else p.wait
  let await := match (old.find? fun q => decide (q.id = p.id ∧ q.handler = p.handler ∧ q.pc = p.pc)).map (·.await) with
    | some (.give h stores num blk q) => .give h stores num blk q
    | _ => .none
  { p with wait := issueAgain w, pwait := issueAgain p.pwait, dwait := 0, await, waitI := none }

/-- Where TRET resumes after a trap in progress (R224). -/
def resumeOf (cause : Nat) (info : Word) (pc : DWord) : DWord :=
  if cause = cBKPT ∨ cause = cSOFTTRAP ∨ (cause = cBATCHERR ∧ bits info 1 0 = 2) then addr56 (pc.toNat + 8) else pc

/-- The least split id of a list. -/
def leastSplit (l : List Split) : Split := l.foldl (fun m p => if p.id < m.id then p else m) (l.headD {})

/-- A restored group's trap registers: PREEMPT when no trap was in progress (R236). `old` is the group of the
record of the save, which tells the faulting split and where it resumes (R224). -/
def Group.restoredTrap (g old : Group) : GTrap :=
  if g.trap.active ∧ old.trap.active ∧ g.trap.cause = old.trap.cause ∧ g.trap.pc = old.trap.pc then g.trap
  else if g.trap.active then
    let h := leastSplit (g.splits.filter fun p => p.handler)
    { g.trap with split := h.id, resume := some (resumeOf g.trap.cause g.trap.info g.trap.pc) }
  else
    { g.trap with cause := cPREEMPT, pc := (leastSplit g.splits).pc, info := BitVec.ofNat 32 g.saves }

/-- A restored group's convoy registers: its membership stands while the slot keeps its generation
(R301). -/
def State.restoredConvoy (s : State) (g : Group) : GConvoy :=
  let v := tget {} (s.die (cvDie g.cv.id)).convoys (cvSlot g.cv.id)
  if g.cv.id ≠ 0 ∧ v.gen = bits g.cv.id 31 20 ∧ (v.members.any fun km => km.2.uid == g.uid) then g.cv
  else { g.cv with id := 0, off := 0, slip := 0, members := 0, timer := 0 }

/-- The end of an entry that completed while its group was context-saved: its status, T of a loop, and an
MDRAIN that is over (R260, R268, R276). -/
def Group.lateEnd (g : Group) (z : MEntry × Nat × Nat) : Group :=
  let e := z.1
  let h := { g with mstat := mstatReport g.mstat e.slot e.tile z.2.2 z.2.1 }
  if e.kind = 2 then { h with cmds := { h.cmds with t := h.cmds.t - 1 } }
  else if e.kind = 3 then
    { h with splits := h.splits.map fun p =>
        if p.id = e.split ∧ p.handler = e.handler then { p with await := .drained } else p }
  else h

/-- The groups of an image, with what the record of the save adds. -/
def State.imageGroups (s : State) (rec_ : Option Saved) (k : Block) (img : List Byte) : List Group × State :=
  let gs := cutGroups k.groups (img.drop (imgNat img 40 8))
  gs.foldl (fun st l =>
    let gid := bits (imgWord l 4) 3 0
    let old := rec_.bind fun v => tfind? v.groups gid
    let base := old.getD { uid := st.2.uidSeq }
    let t := match old with
      | some _ => st.2
      | none => { st.2 with uidSeq := st.2.uidSeq + 1 }
    let g := readGroup base l s.now
    let g1 := { g with splits := g.splits.map fun (p : Split) => p.restored base.splits
                       cmds := { g.cmds with s := g.cmds.s - tget 0 s.lateSent g.uid } }
    let late := s.lateMtx.filter fun z => decide (z.1.uid = g.uid)
    let g2 := late.foldl Group.lateEnd { g1 with cv := s.restoredConvoy g1, trap := g1.restoredTrap base }
    (st.1 ++ [g2], { t with lateSent := tset 0 t.lateSent g.uid 0
                            lateMtx := t.lateMtx.filter fun z => decide (z.1.uid ≠ g.uid) })) ([], s)

/-- Splits of a group placed one by one, ordinary ones as R144 gives and a handler's in entries 62 and 63
first (R165); none without room. -/
def Core.placeAll (x : Core) (slot b padN : Nat) : List Split → Option Core
  | [] => some x
  | p :: l =>
    let at_ := if p.handler then (x.freePlace 62 1).or (x.newPlace b padN true) else x.newPlace b padN false
    match at_ with
    | none => none
    | some e =>
      Core.placeAll { x with groups := tmod x.groups slot fun g =>
        { (if 64 ≤ e then g.setFlag statPADSW else g) with splits := g.splits ++ [{ p with place := e }] } }
        slot b padN l

/-- A group placed in the lowest free slot of a core. -/
def Core.addGroup (x : Core) (b padN : Nat) (g : Group) : Option Core :=
  match leastFrom (fun k => (tfind? x.groups k).isNone) 0 16 with
  | none => none
  | some slot =>
    let y := { x with groups := tput x.groups slot { g with block := b, splits := [] }
                      trapOwner := if g.trap.active then some slot else x.trapOwner }
    if g.trap.active ∧ x.trapOwner.isSome then none else y.placeAll slot b padN g.splits

/-- Every group placed, or none without room. -/
def Core.addGroups (x : Core) (b padN : Nat) : List Group → Option Core
  | [] => some x
  | g :: l => (x.addGroup b padN g).bind fun y => Core.addGroups y b padN l

/-- Allocation bytes with their marks put in place. -/
def Core.putAlloc (x : Core) (base size : Nat) (l : List Byte) (v : Option Saved) : Core :=
  let y := x.loadSpad base size l
  match v with
  | none => y
  | some v =>
    { y with poison := v.poison.foldl (fun t n => tset false t (base / 32 + n) true) y.poison
             nonres := v.nonres.foldl (fun t n => tset false t (base / 32 + n) true) y.nonres }

/-- A plane whose space is that of a block follows the block (R262). -/
def Plane.follow (p : Plane) (c b buid : Nat) : Plane :=
  if p.space.2.2.1 = buid then { p with space := (c, b, buid, p.space.2.2.2) } else p

/-- The splits of a restored group: one whose MDRAIN stands in the table waits for that entry when it
issues the MDRAIN again (R268, R271). -/
def Split.rejoinDrain (p : Split) (l : List MEntry) (uid : Nat) : Split :=
  match l.find? fun e => decide (e.kind = 3 ∧ e.uid = uid ∧ e.split = p.id ∧ e.handler = p.handler) with
  | some e => { p with await := .drain e.num }
  | none => p

/-- The matrix entries of a restored block: they and the plane's space follow it, parked entries become
pending, and an MDRAIN finds its entry again (R262, R271). -/
def State.unparkEntries (s : State) (c b : Nat) (k : Block) : State :=
  let slotOf (uid : Nat) : Nat :=
    (((s.core c).groups.find? fun kg => decide (kg.2.uid = uid)).map (·.1)).getD 0
  let l := (s.cluster (clusterOf c)).entries.filter fun e => decide (e.buid = k.uid)
  let s1 := s.modCore c fun x => { x with groups := x.groups.map fun kg =>
    (kg.1, { kg.2 with splits := kg.2.splits.map fun p => p.rejoinDrain l kg.2.uid }) }
  s1.modCluster (clusterOf c) fun x =>
    { x with
      active := x.active.follow c b k.uid
      shadowP := x.shadowP.follow c b k.uid
      entries := x.entries.map fun e =>
        if e.buid = k.uid then
          { e with core := c, block := b, gslot := slotOf e.uid, state := if e.state = 3 then 0 else e.state }
        else e }

/-- Convoy members that are groups of a restored block follow it (R301). -/
def State.followConvoys (s : State) (c b : Nat) : State :=
  ((s.core c).groups.filter fun kg => decide (kg.2.block = b ∧ kg.2.cv.id ≠ 0)).foldl (fun t kg =>
    t.modDie (cvDie kg.2.cv.id) fun x => { x with convoys := tmod x.convoys (cvSlot kg.2.cv.id) fun v =>
      { v with members := v.members.map fun km =>
          if km.2.uid = kg.2.uid then (km.1, { km.2 with core := c, slot := kg.1 }) else km } }) s

/-- The record of a save taken off the core that the block left. -/
def State.dropSaved (s : State) (c : Nat) (v : Saved) : State :=
  s.modCore c fun x => { x with saved := x.saved.erase v }

/-- A swapped channel of a slot bound again: backed messages enter it (R204). -/
def Chan.rebind (e : Chan) (slot : Nat) : Chan :=
  if e.block = slot ∧ e.state = 2 then { e with state := 1 }.refill else e

/-- A block placed on a core from its image: the slot and base it takes, its groups, channels and entries;
none without room (R236). One that must return to its slot takes its range again too, unless another block has
taken that before a handle pinned it (R247, log entry 40). In diagnostic fixed-latency mode its code is loaded
first (R335). -/
def State.placeImage (s : State) (c : Nat) (img : List Byte) (v : Option Saved) : Option State :=
  let k0 := readBlock ((v.map (·.block)).getD {}) img
  let x := s.core c
  let home := v.filter fun v => v.block.pinSlot
  match (match home with
      | some v => if (tfind? x.blocks v.slot).isNone then some v.slot else none
      | none => x.freeSlot),
      (match home with
      | some v => if x.rangeFree v.block.base k0.size then some v.block.base else x.allocAt k0.size
      | none => x.allocAt k0.size) with
  | some slot, some base =>
    let (gs, s1) := s.imageGroups v k0 img
    let uid := (v.map (·.block.uid)).getD s1.uidSeq
    let depth := bits (imgWord (img.drop (imgNat img 40 8)) 4) 8 6
    let k := { k0 with uid, base, depth, task := if (imgWord img 4).getLsbD 19 then k0.task else none }
    let foot := gs.foldl (fun n g => n + g.foot) 0
    let y := { (x.putAlloc base k.size ((img.drop (imgNat img 32 8)).take k.size) v) with
      blocks := tput x.blocks slot k
      tables := if x.tables.contains k.launch then x.tables else x.tables ++ [k.launch]
      chans := if home.isSome then x.chans.map fun (kc : Nat × Chan) => (kc.1, kc.2.rebind slot) else x.chans
      gated := false
      epoch := if x.gated then s.now else x.epoch }
    if 768 < x.regsUsed + foot then none
    else
      match y.addGroups slot k.padN gs with
      | none => none
      | some z =>
        let s0 := { s1.setCore c z with uidSeq := s1.uidSeq + 1 }
        let s2 := match s0.object? k.launch with
          | some o => s0.loadCode c k.vf o
          | none => s0
        some (((((s2.unparkEntries c slot k).followConvoys c slot).openInterval c slot).rankBlock c slot).moveIn c 62)
  | _, _ => none

/-- The record of the save that an image comes from, with its core. -/
def State.savedFor (s : State) (img : List Byte) : Option (Nat × Saved) :=
  let c := imgCore img
  let k := readBlock {} img
  ((s.core c).saved.find? fun v => decide (v.slot = imgSlot img ∧ v.block.launch = k.launch ∧
    v.block.gang = k.gang ∧ v.block.blockId = k.blockId) && v.area.isSome).map fun v => (c, v)

/-- A restore of an image on a core: the state, or the RES code of its refusal; the VF, the address space and the
privilege of a block are those of its launch (R56, R236, R388). -/
def State.restoreImage (s : State) (c : Nat) (img : List Byte) : Except Nat State :=
  let k := readBlock {} img
  let chans := bits (imgWord img 0) 23 18
  let pin := k.pinSlot || (s.savedFor img).any fun cv => cv.2.block.pinSlot
  if !imageOk img ∨ !((s.launch? k.launch).any fun l => l.priv == k.priv && l.vf == k.vf && l.asid == k.asid) then
    .error 3
  else if (pin ∧ (c ≠ imgCore img ∨ (s.block? c (imgSlot img)).isSome)) ∨
      (k.pinCluster ∧ clusterOf c ≠ clusterOf (imgCore img)) then .error 4
  else
    match s.savedFor img with
    | none =>
      if k.pinSlot ∨ chans ≠ 0 then .error 3
      else
        match s.placeImage c img none with
        | none => .error 3
        | some t => .ok t
    | some (c0, v) =>
      match (s.dropSaved c0 v).placeImage c img (some v) with
      | none => .error 3
      | some t => .ok t

/-! ### CTXCMD (R388) -/

/-- CTXCMD at the end of an operation. -/
def State.ctxEnd (s : State) (res op : Nat) : State :=
  { s with pf := { s.pf with ctxcmd := BitVec.ofNat 32 (res * 2 ^ 28 + op * 2 ^ 26), ctxRun := none } }

/-- CTXCMD while an operation runs; RES already holds what it reports if the block ends by itself. -/
def State.ctxBegin (s : State) (res op c b uid : Nat) : State :=
  { s with pf := { s.pf with ctxcmd := BitVec.ofNat 32 (2 ^ 31 + res * 2 ^ 28 + op * 2 ^ 26)
                             ctxRun := some (c, b, uid) } }

/-- Whether the area is misaligned or a bit that must be 0 is set in CTXADDR (R388). -/
def badArea (a : DWord) : Bool :=
  decide (bits a 60 52 ≠ 0 ∨ bits a 11 0 ≠ 0) || (!a.getLsbD 63 && decide (bits a 62 61 ≠ 0))

/-- The length of the area in bytes. -/
def State.areaLen (s : State) : Nat := 4096 * s.pf.ctxlen.toNat

/-- The core and slot of CTXLOC (R388). -/
def State.ctxCore (s : State) : Nat :=
  64 * bits s.pf.ctxloc 13 12 + 4 * bits s.pf.ctxloc 11 8 + bits s.pf.ctxloc 7 6
def State.ctxSlot (s : State) : Nat := bits s.pf.ctxloc 5 2

/-- A write of CTXCMD: ignored while GO reads 1, kept without GO, else it starts operation `op`; operation 0 does
nothing and has ended at once with RES 0 (R388). -/
def State.ctxWrite (s : State) (value op : Nat) (start : State → State) : Out :=
  let w := BitVec.ofNat 32 value
  if s.pf.ctxcmd.getLsbD 31 then .next s
  else if !w.getLsbD 31 then
    .next { s with pf := { s.pf with ctxcmd := (s.pf.ctxcmd &&& 0x70000000) ||| (w &&& 0x0C000000) } }
  else if bits w 27 26 = 0 then .next (s.ctxEnd 0 0)
  else if bits w 27 26 ≠ op then s.noEvent
  else .next (start s)

/-- A context save of the block that CTXLOC names begun (R233, R388). -/
def State.startSave (s : State) : State :=
  let c := s.ctxCore
  let b := s.ctxSlot
  match s.block? c b with
  | none => s.ctxEnd 1 1
  | some k =>
    if k.ended then s.ctxEnd 1 1
    else if s.ckptHolds k.vf then s.ctxEnd 6 1
    else if k.task.isSome && !k.committed then (s.discardBlock c b).ctxBegin 5 1 c b k.uid
    else if badArea s.pf.ctxaddr then s.ctxEnd 2 1
    else (s.preempt c b).ctxBegin 1 1 c b k.uid

/-- CTX_SAVE (R233, R388): the save begins; GO reads 1 until State.ctxTick ends it. -/
def execCtxSave (value : Nat) (s : State) : Out := s.ctxWrite value 1 State.startSave

/-- A restore of the image in the area. -/
def State.startRestore (s : State) : State :=
  let a := s.pf.ctxaddr
  if badArea a ∨ s.areaLen < 64 then s.ctxEnd 2 2
  else
    let len := imgNat (s.readArea a 64) 48 8
    if s.areaLen < len then s.ctxEnd 2 2
    else
      let img := s.readArea a len
      if s.ckptHolds (readBlock {} img).vf then s.ctxEnd 6 2
      else
        match s.restoreImage s.ctxCore img with
        | .ok t => t.ctxEnd 0 2
        | .error r => s.ctxEnd r 2

/-- CTX_RESTORE (R236, R388). -/
def execCtxRestore (value : Nat) (s : State) : Out := s.ctxWrite value 2 State.startRestore

/-- A discard of the block that CTXLOC names begun: a task is requeued, any other block's launch is
marked faulted with cause PREEMPT (R388); TRAPPC and TRAPINFO of its event follow log entry 75. -/
def State.startDiscard (s : State) : State :=
  let c := s.ctxCore
  let b := s.ctxSlot
  match s.block? c b with
  | none => s.ctxEnd 1 3
  | some k =>
    if k.ended then s.ctxEnd 1 3
    else if s.ckptHolds k.vf then s.ctxEnd 6 3
    else if k.task.isSome then (s.discardBlock c b).ctxBegin 5 3 c b k.uid
    else
      let first := ((s.core c).groupsOf b).head?
      let pc := (first.map fun kg => (leastSplit kg.2.splits).pc).getD 0
      ((s.fault k.launch
        { cause := cPREEMPT, pc, info := 0, gid := (first.map fun kg => kg.2.gid).getD 0
          blockId := k.blockId, gang := k.gang, core := c, cyc := s.cycle c, at_ := s.now }).discardBlock c b).ctxBegin 0 3
        c b k.uid

/-- CTX_DISCARD (R388): the discard begins; GO reads 1 until the block is gone. -/
def execCtxDiscard (value : Nat) (s : State) : Out := s.ctxWrite value 3 State.startDiscard

/-- The operation in progress goes on as a cycle passes: a save ends once its block is quiet, a discard
once its block is gone (R233, R388). -/
def State.ctxTick (s : State) : State :=
  match s.pf.ctxRun with
  | none => s
  | some (c, b, uid) =>
    let op := bits s.pf.ctxcmd 27 26
    match s.block? c b with
    | none => s.ctxEnd (bits s.pf.ctxcmd 30 28) op
    | some k =>
      if k.uid ≠ uid then s.ctxEnd (bits s.pf.ctxcmd 30 28) op
      else if k.preempt && s.quiet c b k then
        match s.saveBlock c b s.pf.ctxaddr s.areaLen with
        | some t => t.ctxEnd 0 1
        | none => (s.modBlock c b fun k => { k with preempt := false }).ctxEnd 2 1
      else s

end Sys2Proof.Machine
end

