-- ==== Sys2Proof/Machine/MeshGrant.lean ====
section
/-!
DEFINITION. Arbitration of the output ports of a mesh, delivery, ages and promotion, slot tables and
MESHARB (R315 to R326).
-/
namespace Sys2Proof.Machine

/-! ### Heads that wait at a port (R317) -/

/-- A head that waits: its input port and channel, and its packet's slot. -/
structure Head where
  inp : Nat
  vc : Nat
  slot : Slot

/-- Class, and place in the order of R319, of a head. -/
def Head.cls (h : Head) : Nat := h.slot.pkt.cls
def Head.queue (h : Head) : Nat := 4 * h.inp + (2 * h.slot.pkt.route + h.slot.pkt.kind)

/-- Whether a core of the cluster has a full landing buffer, or engines that cannot take a reply (R316). -/
def State.coreStalled (s : State) (d r : Nat) : Bool :=
  (rangeFrom (64 * d + 4 * r) 4).any fun c => decide (8 ≤ (s.core c).landing.length) || (s.core c).noReply

/-- The youngest open entry for the unit and VF of a read, when the read may attach to it (R279, R280): one that
arrived under another poison and quarantine state, or whose leaf has the bytes decoded in another way, opens an
entry of its own, so that no result depends on a merge (R6, R355, log entry 77). -/
def Stop.joinable (t : Stop) (r : Req) : Option Fold :=
  match (t.folds.filter fun f =>
      decide (f.key = (r.pa, r.vf) ∧ f.req.unit = r.unit ∧ f.copy = none) && !f.done).getLast? with
  | none => none
  | some f =>
    if f.closed ∨ 16 ≤ f.tags.length ∨ f.poisoned ≠ (r.recorded || r.quar) ∨ f.req.leaf.enc ≠ r.leaf.enc ∨
      f.req.leaf.integ ≠ r.leaf.integ then none else some f

/-- Whether a stop stalls its port: a read there finds every Fold entry in use and none to attach to, or the
writes and atomics there exceed the write queue (R282). -/
def Stop.stalled (t : Stop) : Bool :=
  (decide (256 ≤ t.folds.length) && t.inq.any fun r => decide (r.kind = 0) && (t.joinable r).isNone) ||
    decide (Config.writeQueue < (t.inq.filter fun r => decide (r.kind ≠ 0)).length)

/-- Whether a die's link hub shows a stall for a channel: of the 4 places that it has for packets from the
mesh fewer than 3 are free (R310, R392). -/
def State.hubStalled (s : State) (d vc : Nat) : Bool :=
  decide (1 < (s.fabric.filter fun p => p.mesh && decide (p.hub = d ∧ p.linkVc = vc % 4)).length)

/-- Whether the sender at output port `q` of router `r` sees a stall for a packet (R315, R316). -/
def State.seesStall (s : State) (d r q : Nat) (p : Packet) : Bool :=
  match leadsTo r q with
  | .router r' i => (s.die d).stalls.contains (bufKey r' i p.vc)
  | .cluster => p.kind == 0 && s.coreStalled d r
  | .stop t =>
    (match p.payload with
    | .fab _ => s.hubStalled d p.vc
    | _ => p.kind == 0 && (s.stop d t).stalled)
  | .bridge lane x => (s.die (d ^^^ x)).laneSeen.contains (laneKey lane (x == 2) p.vc)

/-- The fronts of the input buffers of a router routed to port `q`, stalled or not. -/
def State.fronts (s : State) (d r q : Nat) : List Head :=
  (rangeFrom 0 40).filterMap fun k =>
    match (s.die d).buf r (k / 8) (k % 8) with
    | sl :: _ =>
      if sl.todo.contains q ∧ sl.since ≤ s.now ∧ !sl.body then
        some { inp := k / 8, vc := k % 8, slot := sl }
      else none
    | [] => none

/-- The heads that wait at port `q` of router `r` of die `d`. -/
def State.waiting (s : State) (d r q : Nat) : List Head :=
  (s.fronts d r q).filter fun h => !s.seesStall d r q h.slot.pkt

/-- The fields of MESHARB; 0 acts as 1 (R321). -/
def Die.agemax (x : Die) : Nat := Nat.max 1 (bits x.mesharb 23 16)
def Die.wbulk (x : Die) : Nat := Nat.max 1 (bits x.mesharb 7 4)
def Die.wlat (x : Die) : Nat := Nat.max 1 (bits x.mesharb 3 0)

/-- An output port of a router (R307). -/
def Die.port (x : Die) (r q : Nat) : Port := tget {} x.ports (8 * r + q)
/-- An output port changed. -/
def State.modPort (s : State) (d r q : Nat) (f : Port → Port) : State :=
  s.modDie d fun x => { x with ports := tset {} x.ports (8 * r + q) (f (x.port r q)) }

/-- The first head of a class after the one last granted in it (R319). -/
def Port.next (p : Port) (cls : Nat) (l : List Head) : Option Head :=
  let ptr := if cls = 0 then p.ptrLat else p.ptrBulk
  let mine := l.filter fun h => h.cls == cls
  (rangeFrom 1 20).findSome? fun k => mine.find? fun h => h.queue == (ptr + k) % 20

/-- Latency class before bulk, and within a class in the order of R319. -/
def Port.latFirst (p : Port) (l : List Head) : Option Head := (p.next 0 l).or (p.next 1 l)

/-! ### The choice of R317 -/

/-- A valid slot table entry: its partition and class (R322). -/
def reservation (e : Nat) : Option (Nat × Nat) :=
  if e / 2 ^ 15 % 2 = 1 then some (e % 128, e / 2 ^ 13 % 4) else none

/-- The head that a reservation grants: of its partition and a permitted class (R317). -/
def Port.reserved (p : Port) (l : List Head) (x : Nat × Nat) : Option Head :=
  p.latFirst (l.filter fun h =>
    h.slot.pkt.part == x.1 && (x.2 == 0 || (x.2 == 1 && h.cls == 0) || (x.2 == 2 && h.cls == 1)))

/-- Rule 2 of R317: the deferred reservations from the oldest, then the current slot's: the head granted
and the reservations that stay deferred. -/
def Port.rule2 (p : Port) (l : List Head) (cur : Option (Nat × Nat)) :
    List (Nat × Nat) → Option Head × List (Nat × Nat)
  | [] =>
    match cur with
    | none => (none, [])
    | some x => (p.reserved l x, [])
  | x :: xs =>
    match p.reserved l x with
    | some h => (some h, xs ++ cur.toList)
    | none => p.rule2 l cur xs

/-- Age of a head at a port (R320). -/
def Head.age (h : Head) (q : Nat) : Nat := tget 0 h.slot.ages q

/-- Rule 3 of R317: the promoted head of the largest age; a head is promoted while its age is at least
AGEMAX (R320). -/
def Port.rule3 (p : Port) (agemax q : Nat) (l : List Head) : Option Head :=
  let pr := l.filter fun h => h.slot.promoted.contains q && decide (agemax ≤ h.age q)
  let top := pr.foldl (fun n h => Nat.max n (h.age q)) 0
  p.latFirst (pr.filter fun h => h.age q == top)

/-- Rule 4: the weighted round-robin (R318): the head granted and the state of the port after it. -/
def Port.rule4 (p : Port) (x : Die) (l : List Head) : Option Head × Port :=
  let has (c : Nat) : Bool := l.any fun h => h.cls == c
  let w := if p.cur = 0 then x.wlat else x.wbulk
  if !has 0 && !has 1 then (none, p)
  else if !has (1 - p.cur) then (p.next p.cur l, { p with n := p.n + 1 })
  else if !has p.cur then (p.next (1 - p.cur) l, { p with cur := 1 - p.cur, n := 1 })
  else if p.n < w then (p.next p.cur l, { p with n := p.n + 1 })
  else (p.next (1 - p.cur) l, { p with cur := 1 - p.cur, n := 1 })

/-! ### Delivery (R324, R327) -/

/-- What belongs to a stolen task reaches its core: a thief that is not power-gated keeps the record and
acknowledges it; a NACK makes it discard its copy (R237). -/
def State.taskMsg (s : State) (m : TaskMsg) : State :=
  match m with
  | .record thief r => s.modCore thief fun x =>
      if x.gated then x else { x with stolen := x.stolen ++ [r], outTasks := x.outTasks ++ [.ack thief r] }
  | .ack thief r => s.modCore r.victim fun x => { x with acks := x.acks ++ [(thief, r)] }
  | .nack thief r => s.modCore thief fun x => { x with stolen := x.stolen.filter fun q => decide (q.lease ≠ r.lease) }
  | .report owner entry gen code _ => { s with reports := s.reports ++ [(owner, entry, gen, code)] }

/-- A packet reaches the cluster of router `r`: a reply its engines, a message its core, a seal request the
die's controller, a confirmation the split that waits for it, a bound the member's engine, an answer of the
fabric or what belongs to a stolen task the core (R237, R292, R303, R326, R327). -/
def State.toCluster (s : State) (d r : Nat) (p : Packet) : State :=
  match p.payload with
  | .reply tags bytes poison st =>
    (tags.filter fun t => decide (clusterOf t.core = 16 * d + r)).foldl
      (fun u t => u.answer t.core t.seq t.id t.va bytes poison st) s
  | .msg m => s.modCore m.target fun x =>
      if m.kind = 2 then { x with nacks := x.nacks ++ [m] } else { x with landing := x.landing ++ [m] }
  | .task m => s.taskMsg m
  | .ask a lift => s.modDie d fun x =>
      if lift = true then { x with unsealReqs := x.unsealReqs ++ [a] } else { x with sealReqs := x.sealReqs ++ [a] }
  | .confirm a w => s.answerAsk a w
  | .bound die slot _ core gslot uid num => s.modMember die slot core gslot uid fun m =>
      if m.due.any fun b => b.1 == num then { m with here := m.here ++ [num] } else m
  | .fab p => { s with results := s.results ++ [p] }
  | .req _ => s

/-- A packet reaches stop `t`, or the link hub beside it. A request is discarded while its partition resets;
another is seen with the poison record and quarantines as they stand, and counted unless it is firmware's (R284,
R285, R330, R331, R355, R390). -/
def State.toStop (s : State) (d t : Nat) (p : Packet) : State :=
  match p.payload with
  | .req r =>
    if (s.fn p.part).resetting then s.landed r.id
    else
      s.modStop d t fun y =>
        { y with
          inq := y.inq ++ [{ r.sampled s d t with arrived := s.now }]
          freq := if r.kind = 0 ∧ p.part ≠ 127 then y.freq + 1 else y.freq
          fwrt := if r.kind = 0 ∨ p.part = 127 then y.fwrt else y.fwrt + 1 }
  | .fab q => { s with fabric := s.fabric ++ [{ q with hub := d, mesh := true }] }
  | _ => s

/-- The packets granted to local and stop outputs in the cycle before arrive (R324). -/
def State.land (s : State) (d : Nat) : State :=
  let l := (s.die d).leaving
  if l = [] then s
  else
    l.foldl (fun t kp =>
      match leadsTo (kp.1 / 8) (kp.1 % 8) with
      | .stop n => t.toStop d n kp.2
      | _ => t.toCluster d (kp.1 / 8) kp.2) (s.modDie d fun x => { x with leaving := [] })

/-- Cycles from the grant of a head to a bridge lane until it has crossed: exact in diagnostic fixed-latency
mode, else 12 to 24 in all, as a free value has it (R324). -/
def State.crossing (s : State) : Nat × State :=
  if s.fixlat then (17, s)
  else
    let (n, t) := s.freshFree
    (11 + (Config.freeByte n).toNat % 13, t)

/-- A packet sent out of port `q` of router `r` of die `d`; one of two flits for a cluster is whole when its
body has followed (R308, R324). -/
def State.leave (s : State) (d r q : Nat) (p : Packet) : State :=
  match leadsTo r q with
  | .router r' i =>
    s.modDie d fun x =>
      let y := x.enter d r' i (s.now + 2) p
      let l := y.buf r' i p.vc
      let l' := l.mapIdx fun n sl =>
        if n + 1 = l.length then { sl with short := decide (p.flits = 2) } else sl
      { y with bufs := tset [] y.bufs (bufKey r' i p.vc) l' }
  | .bridge lane x =>
    let (n, s0) := s.crossing
    let k := laneKey lane (x == 2) p.vc
    let s1 := s0.modDie (d ^^^ x) fun y =>
      { y with lanes := tset [] y.lanes k (tget [] y.lanes k ++ [{ pkt := p, todo := [], since := s.now + n }]) }
    match p.payload with
    | .req r => { s1 with fly := s1.fly.map (Fly.crossed r.id) }
    | _ => s1
  | _ =>
    if p.flits = 2 then s
    else s.modDie d fun x => { x with leaving := x.leaving ++ [(8 * r + q, p)] }

/-- The front of an input buffer changed; the next packet comes to the front in the next cycle. -/
def State.modFront (s : State) (d r i vc : Nat) (f : Slot → Option Slot) : State :=
  s.modDie d fun x =>
    match x.buf r i vc with
    | [] => x
    | sl :: rest =>
      let rest' := match f sl with
        | some y => y :: rest
        | none =>
          match rest with
          | [] => []
          | z :: zs => { z with since := Nat.max z.since (s.now + 1) } :: zs
      { x with bufs := tset [] x.bufs (bufKey r i vc) rest' }

/-- A head granted at port `q`: its copy leaves, and its buffer frees when every copy has been sent; the
port's pointer and counters follow (R319, R326, R328). -/
def State.sendHead (s : State) (d r q : Nat) (h : Head) (p : Port) : State :=
  let pkt := h.slot.pkt
  let two := decide (pkt.flits = 2)
  let p1 : Port :=
    { p with
      ptrLat := if pkt.cls = 0 then h.queue else p.ptrLat
      ptrBulk := if pkt.cls = 0 then p.ptrBulk else h.queue
      txlat := if pkt.cls = 0 then p.txlat + 1 else p.txlat
      txbulk := if pkt.cls = 0 then p.txbulk else p.txbulk + 1
      body := if two then some (8 * h.inp + h.vc) else none
      nextAt := s.now + 1 }
  ((s.modFront d r h.inp h.vc fun sl =>
    let left := sl.todo.filter fun x => x != q
    if two then some { sl with body := true }
    else if left = [] then none
    else some { sl with todo := left }).modPort d r q fun _ => p1).leave d r q (copyFor d r q pkt)

/-- The body flit of the packet granted before follows (R308, R317): its buffer frees, and the packet is
whole where it went. -/
def State.sendBody (s : State) (d r q k : Nat) (p : Port) : State :=
  let front := ((s.die d).buf r (k / 8) (k % 8)).head?
  let cls := match front with
    | some sl => sl.pkt.cls
    | none => 0
  let s1 := s.modFront d r (k / 8) (k % 8) fun _ => none
  let s2 := match leadsTo r q, front with
    | .router r' i, _ => s1.modDie d fun (x : Die) =>
        let l := (x.buf r' i (k % 8)).map fun (sl : Slot) => { sl with short := false }
        { x with bufs := tset [] x.bufs (bufKey r' i (k % 8)) l }
    | .cluster, some sl => s1.modDie d fun x =>
        { x with leaving := x.leaving ++ [(8 * r + q, copyFor d r q sl.pkt)] }
    | _, _ => s1
  s2.modPort d r q fun _ =>
    { p with
      body := none, nextAt := s.now + 1
      txlat := if cls = 0 then p.txlat + 1 else p.txlat
      txbulk := if cls = 0 then p.txbulk else p.txbulk + 1 }

/-- Whether a router purges a partition (R329). -/
def Die.isPurging (x : Die) (r : Nat) : Bool := x.purging.any fun y => y.1 == r

/-- Whether every waiting head whose age has reached AGEMAX is marked promoted (R320). -/
def promotionsDone (x : Die) (q : Nat) (l : List Head) : Bool :=
  l.all fun h => decide (h.age q < x.agemax) || h.slot.promoted.contains q

/-- OUTPUT_PORT_GRANT (R317): one cycle of an output port. It sends a body flit, or grants by the first
rule that yields a head, or grants nothing. -/
def execOutputPortGrant (die router port : Nat) (s : State) : Out :=
  let x := s.die die
  let p := x.port router port
  let cur := reservation (tget 0 p.slots x.slotIndex)
  if 16 ≤ router ∨ 5 ≤ port ∨ s.now < p.nextAt then s.noEvent
  else
    match p.body with
    | some k => .next (s.sendBody die router port k { p with deferred := p.deferred ++ cur.toList })
    | none =>
      let l := s.waiting die router port
      if !promotionsDone x port l then s.noEvent
      else
        let r2 := p.rule2 l cur p.deferred
        let p2 := { p with deferred := r2.2, nextAt := s.now + 1 }
        match r2.1 with
        | some h => .next (s.sendHead die router port h { p2 with txres := p2.txres + 1 })
        | none =>
          if x.isPurging router then .next (s.modPort die router port fun _ => p2)
          else
            match p2.rule3 x.agemax port l with
            | some h => .next (s.sendHead die router port h { p2 with promo := p2.promo + 1 })
            | none =>
              let r4 := p2.rule4 x l
              match r4.1 with
              | some h => .next (s.sendHead die router port h r4.2)
              | none => .next (s.modPort die router port fun _ => p2)

/-- HEAD_PROMOTION (R320): a waiting head whose age has reached AGEMAX is promoted. -/
def execHeadPromotion (die router inport vc : Nat) (s : State) : Out :=
  let x := s.die die
  match x.buf router inport vc with
  | [] => s.noEvent
  | sl :: _ =>
    let due := sl.todo.filter fun q => decide (x.agemax ≤ tget 0 sl.ages q) && !sl.promoted.contains q
    if due = [] then s.noEvent
    else .next (s.modFront die router inport vc fun y => some { y with promoted := y.promoted ++ due })

/-! ### MESHARB and the slot tables (R321, R325) -/

/-- MESHARB_WRITE (R321): the value takes effect at the next slot index 0. -/
def execMesharbWrite (die value : Nat) (s : State) : Out :=
  .next (s.modDie die fun x => { x with mesharbNew := some (BitVec.ofNat 32 value &&& 0x00FF00FF) })

/-- A written MESHARB in force. -/
def Die.applyMesharb (x : Die) : Die :=
  { x with mesharb := x.mesharbNew.getD x.mesharb, mesharbNew := none }

/-- MESHARB_APPLY (R321). -/
def execMesharbApply (die : Nat) (s : State) : Out :=
  let x := s.die die
  if x.slotIndex = 0 ∧ x.mesharbNew.isSome then .next (s.modDie die Die.applyMesharb)
  else s.noEvent

/-- SLOTCMD (R325): a write of the register; GO asks for a commit. -/
def execSlotcmd (die value : Nat) (s : State) : Out :=
  .next (s.modDie die fun x =>
    let w := BitVec.ofNat 32 value &&& 0x800000F7
    { x with slotcmd := if w.getLsbD 31 then w else w ||| (x.slotcmd &&& 0xF0000000) })

/-- Whether a staged entry holds a refused field value (R322). -/
def refusedEntry (e : Nat) : Bool :=
  decide (e / 2 ^ 15 % 2 = 1) &&
    (decide (e / 2 ^ 13 % 4 = 3) || decide (e / 128 % 64 ≠ 0) || decide (64 ≤ e % 128 ∧ e % 128 ≤ 126))

/-- RES of a commit (R325). -/
def Die.slotRes (x : Die) : Nat :=
  let all := (rangeFrom 0 64).map fun i => tget 0 x.staging i
  if 4 < bits x.slotcmd 2 0 then 3
  else if all.any refusedEntry then 2
  else if 48 < (all.filter fun e => decide (e / 2 ^ 15 % 2 = 1)).length then 1
  else 0

/-- The slot allocator acts: the table is replaced whole or the commit refused (R325). -/
def Die.applySlots (x : Die) : Die :=
  let res := x.slotRes
  let k := 8 * bits x.slotcmd 7 4 + bits x.slotcmd 2 0
  let y := { x with slotcmd := (x.slotcmd &&& 0xF7) ||| BitVec.ofNat 32 (res * 2 ^ 28) }
  if res = 0 then { y with ports := tset {} x.ports k { tget {} x.ports k with slots := x.staging } } else y

/-- SLOT_TABLE_REPLACE (R325). -/
def execSlotTableReplace (die : Nat) (s : State) : Out :=
  let x := s.die die
  if x.slotIndex = 0 ∧ x.slotcmd.getLsbD 31 then .next (s.modDie die Die.applySlots)
  else s.noEvent

/-! ### The end of a cycle (R315, R320, R322, R328) -/

/-- Ages of the front packet of a buffer after a cycle in which it waited without a grant (R320). -/
def State.ageFront (s : State) (d r : Nat) (sl : Slot) : Slot :=
  if sl.since ≤ s.now ∧ !sl.body then
    { sl with ages := sl.todo.foldl (fun t q =>
        if s.seesStall d r q sl.pkt then t else tset 0 t q (Nat.min 255 (tget 0 t q + 1))) sl.ages }
  else sl

/-- The packets of a partition taken out of a list of buffers, and how many flits went. -/
def purgeSlots (vf : Nat) (l : List Slot) : List Slot × Nat :=
  (l.filter fun sl => decide (sl.pkt.part ≠ vf), flitsIn (l.filter fun sl => decide (sl.pkt.part = vf)))

/-- A die's routers discard the packets of a partition: PURGED counts their flits at the input ports, and a
body flit that was to follow goes with its head (R328, R329). -/
def Die.discard (x : Die) (vf : Nat) : Die :=
  let lost := x.bufs.map fun kb => (kb.1, (purgeSlots vf kb.2).2)
  let bodies := x.bufs.filterMap fun kb => match kb.2 with
    | sl :: _ => if sl.body ∧ sl.pkt.part = vf then some kb.1 else none
    | [] => none
  let ports := lost.foldl (fun t kn =>
    if kn.2 = 0 then t
    else tset {} t (kn.1 / 8) { tget {} t (kn.1 / 8) with
      purged := (tget {} t (kn.1 / 8)).purged + BitVec.ofNat 32 kn.2 }) x.ports
  { x with
    bufs := (x.bufs.map fun kb => (kb.1, (purgeSlots vf kb.2).1)).filter fun kb => decide (kb.2 ≠ [])
    ports := ports.map fun kp =>
      (kp.1, { kp.2 with body := kp.2.body.filter fun k => !bodies.contains (64 * (kp.1 / 8) + k) }) }

/-- The partitions that a die's routers purge. -/
def Die.purgedParts (x : Die) : List Nat := (x.purging.map fun y => y.2.1).eraseDups

/-- The body flit of a packet that entered from outside the mesh has followed its head once the head may
wait (R308). -/
def Slot.whole (sl : Slot) (now : Nat) : Slot := if sl.since ≤ now then { sl with short := false } else sl

/-- The stall bits of lanes that cross back by the end of a cycle: those of 18 cycles before in diagnostic
fixed-latency mode, else of 12 to 24, as a free value has it (R316). -/
def State.laneBits (s : State) (hist : List (List Nat)) : List Nat × State :=
  if s.fixlat then (hist.getD 17 [], s)
  else if hist.all (·.isEmpty) then ([], s)
  else
    let (n, t) := s.freshFree
    (hist.getD (11 + (Config.freeByte n).toNat % 13) [], t)

/-- One cycle ends on a die: ages, STALLC, discards of a purge, the stall bits, the slot index, MESHARB and
slot tables, and the end of purges. `old` is the machine in which the cycle ends on every die: what another die
shows is what it showed in this cycle. -/
def State.endCycle (s old : State) (d : Nat) : State :=
  let x := s.die d
  let hist := x.lanesFull s.now :: x.laneHist.take 23
  let (seen, s1) := s.laneBits hist
  let aged := x.bufs.map fun kb =>
    match kb.2 with
    | [] => kb
    | sl :: rest =>
      if x.isPurging (kb.1 / 64) then kb else (kb.1, old.ageFront d (kb.1 / 64) sl :: rest)
  let blocked := x.bufs.flatMap fun kb =>
    match kb.2 with
    | sl :: _ =>
      if sl.since ≤ s.now ∧ !sl.body then
        (sl.todo.filter fun q => old.seesStall d (kb.1 / 64) q sl.pkt).map fun q => 8 * (kb.1 / 64) + q
      else []
    | [] => []
  let ports := blocked.eraseDups.foldl (fun t k =>
    tset {} t k { tget {} t k with stallc := (tget {} t k).stallc + 1 }) x.ports
  let whole := aged.map fun kb => (kb.1, kb.2.map fun sl => sl.whole s.now)
  let w := x.purgedParts.foldl Die.discard { x with bufs := whole, ports }
  let y := { w with
    slotIndex := (x.slotIndex + 1) % 64
    stalls := (w.bufs.filter fun kb => decide (1 < flitsIn kb.2)).map (·.1)
    busy := x.busy.filter fun kn => decide (s.now + 1 < kn.2)
    laneHist := if hist.all (·.isEmpty) then [] else hist, laneSeen := seen
    purging := x.purging.filter fun p => decide (s.now + 1 < p.2.2) }
  let z := if x.slotIndex = 0 then
      (let y1 := y.applyMesharb
       if y1.slotcmd.getLsbD 31 then y1.applySlots else y1)
    else y
  { s1 with dies := tset {} s1.dies d z }

end Sys2Proof.Machine
end

