-- ==== Sys2Proof/Machine/Reset.lean ====
section
/-!
DEFINITION. The function-level reset of a VF and the purge of its partition (R329, R330, R379).
-/
namespace Sys2Proof.Machine

/-- A block of a resetting VF taken off its core: its commands are cancelled, its groups leave their
convoys and end, its matrix entries are dropped and its resources freed (R330, R379). -/
def State.resetBlock (s : State) (c b : Nat) : State :=
  match s.block? c b with
  | none => s
  | some k =>
    let mine := ((s.core c).groups.filter fun kg => decide (kg.2.block = b)).map (·.1)
    let s1 := mine.foldl (fun t g => t.leaveConvoy c g) s
    let s2 := (s1.parkEntries c k).dropEntries (clusterOf c) fun e => decide (e.core = c ∧ e.buid = k.uid)
    let s3 := s2.modCore c fun x =>
      { x with
        cmds := x.cmds.filter fun m => !decide (m.block = b ∧ m.buid = k.uid)
        groups := x.groups.filter fun kg => decide (kg.2.block ≠ b)
        emptyAt := s.now
        trapOwner := x.trapOwner.filter fun g => !mine.contains g
        dbgHeld := x.dbgHeld.filter fun g => !mine.contains g }
    s3.freeBlock c b

/-- A context-saved block of a resetting VF discarded: its parked matrix entries are dropped, its groups
leave their convoys, its global seal entries go, and the buffers that it holds, queues or is home of are freed
(R247, R271, R296, R305, R330, R379). -/
def State.resetSaved (s : State) (c : Nat) (v : Saved) : State :=
  let s1 := s.dropEntries (clusterOf c) fun e => decide (e.core = c ∧ e.buid = v.block.uid)
  let s2 := v.groups.foldl (fun t kg => if kg.2.cv.id = 0 then t else t.dropMember kg.2.cv.id kg.2.uid) s1
  let s3 := if v.block.pinSlot then s2.freeHandles c (if v.late then 16 else v.slot) v.block.uid else s2
  { s3.unsealBlock v.block.uid with lateMtx := s3.lateMtx.filter fun z => decide (z.1.buid ≠ v.block.uid) }

/-- The blocks of a VF on a core taken off it. -/
def State.resetCore (s : State) (c vf : Nat) : State :=
  let slots := ((s.core c).blocks.filter fun kb => decide (kb.2.vf = vf)).map (·.1)
  let s0 := slots.foldl (fun t b => t.resetBlock c b) s
  let s1 := ((s.core c).saved.filter fun v => decide (v.block.vf = vf)).foldl (fun t v => t.resetSaved c v) s0
  let gone := s.launches.filter fun l => decide (l.vf = vf)
  let s2 := s1.modCore c fun x =>
    { x with
      saved := x.saved.filter fun v => decide (v.block.vf ≠ vf)
      chans := x.chans.map fun kc =>
        if kc.2.state = 2 ∧ (x.saved.any fun v => decide (v.slot = kc.2.block ∧ v.block.vf = vf)) then
          (kc.1, { gen := kc.2.gen }) else kc
      tasks := x.tasks.map fun kt => if kt.2.state ≠ 0 ∧ kt.2.vf = vf then (kt.1, kt.2.freed) else kt
      stolen := x.stolen.filter fun r => decide (r.task.vf ≠ vf)
      outTasks := x.outTasks.filter fun m => decide (m.part ≠ vf)
      acks := x.acks.filter fun a => decide (a.2.task.vf ≠ vf)
      amq := x.amq.filter fun m => decide (m.part ≠ vf)
      ambacking := x.ambacking.filter fun m => decide (m.part ≠ vf)
      landing := x.landing.filter fun m => decide (m.part ≠ vf)
      nacks := x.nacks.filter fun m => decide (m.part ≠ vf)
      outNacks := x.outNacks.filter fun m => decide (m.part ≠ vf)
      tables := x.tables.filter fun g => !(gone.any fun l => l.id == g)
      fetches := x.fetches.filter fun f => decide (f.vf ≠ vf)
      resetBy := if slots = [] then x.resetBy else vf :: x.resetBy }
  (s2.moveIn c 62).nextTrap c

/-- Whether a core's task table holds a task of a VF that has not ended (R237). -/
def Core.hasTasks (x : Core) (vf : Nat) : Bool :=
  x.tasks.any fun kt => decide (kt.2.vf = vf ∧ 1 ≤ kt.2.state ∧ kt.2.state ≤ 4)

/-- The routers and bridges of a die purge a partition (R329, R330): what was granted to a local or stop
output has left its router. -/
def Die.purge (x : Die) (vf now : Nat) : Die :=
  let y := x.discard vf
  { y with
    lanes := (y.lanes.map fun kb => (kb.1, (purgeSlots vf kb.2).1)).filter fun kb => decide (kb.2 ≠ [])
    outCtl := y.outCtl.filter fun p => decide (p.part ≠ vf)
    purging := y.purging ++ (rangeFrom 0 16).map fun r => (r, vf, now + 64) }

/-- A stop loses the reads, tags and replies of a partition, and the entries whose replies those were; its
writes and atomics there perform (R330). -/
def Stop.purge (t : Stop) (vf : Nat) : Stop :=
  { t with
    inq := t.inq.filter fun r => decide (r.kind ≠ 0 ∨ r.vf ≠ vf)
    folds := (t.folds.filter fun f => !(f.done && decide (f.key.2 = vf))).map fun f =>
      { f with tags := f.tags.filter fun g => decide (g.part ≠ vf) }
    replies := t.replies.filter fun p => decide (p.2.part ≠ vf) }

/-- A die's requests, seals and replicas of a VF discarded (R305, R330, R379). -/
def Die.dropVf (x : Die) (vf : Nat) : Die :=
  { x with
    stops := x.stops.map fun kt => (kt.1, kt.2.purge vf)
    xlat := x.xlat.filter fun r => decide (r.vf ≠ vf)
    walks := x.walks.filter fun w => decide (w.vf ≠ vf)
    joins := x.joins.filter fun a => decide (a.vf ≠ vf)
    sealReqs := x.sealReqs.filter fun a => decide (a.vf ≠ vf)
    unsealReqs := x.unsealReqs.filter fun a => decide (a.vf ≠ vf)
    gseals := x.gseals.filter fun e => decide (e.vf ≠ vf)
    replicas := x.replicas.filter fun r => decide (r.vf ≠ vf) }

/-- CKPT at the end of a checkpoint or restore: GO clear and STATUS set, with an event of kind 9 (R380,
R381). -/
def State.ckptEnd (s : State) (status : Nat) (next : Option Ckpt) : State :=
  ({ s with pf := { s.pf with ckpt := (s.pf.ckpt &&& 0x3FF) ||| BitVec.ofNat 64 (status * 2 ^ 60) }
            ckpt := next }).raise 64 9 status 0 0 (s.cycle 0) 0 0 0

/-- A block that goes on. -/
def Block.goOn (k : Block) (p : Nat → Bool) : Block := if p k.vf then { k with preempt := false } else k

/-- The blocks of a core that go on. -/
def Core.goOn (x : Core) (p : Nat → Bool) : Core :=
  { x with blocks := x.blocks.map fun (kb : Nat × Block) => (kb.1, kb.2.goOn p) }

/-- The blocks of a checkpoint's scope go on (R380). -/
def State.unpreempt (s : State) (p : Nat → Bool) : State :=
  { s with cores := s.cores.map fun (kc : Nat × Core) => (kc.1, kc.2.goOn p) }

/-- Whether a checkpoint's scope holds a VF. -/
def Ckpt.scope (k : Ckpt) (vf : Nat) : Bool := k.whole || k.vf == vf

/-- A reset of a VF in the scope ends a checkpoint in progress with ABORTED (R380). -/
def State.abortCkpt (s : State) (vf : Nat) : State :=
  match s.ckpt with
  | none => s
  | some k =>
    if k.scope vf ∧ !k.ended then (s.unpreempt k.scope).ckptEnd 1 none
    else if !k.whole ∧ k.vf = vf then { s with ckpt := none }
    else s

/-- FUNCTION_LEVEL_RESET (R329, R330, R379): the VF's blocks are discarded, its partition is purged, its
resources are freed and its queue registers return to 0. -/
def execFunctionLevelReset (vf : Nat) (s : State) : Out :=
  if 64 ≤ vf ∨ (s.fn vf).resetting then s.noEvent
  else
    let cores := s.cores.map (·.1)
    let s1 := s.abortCkpt vf
    let s2 := cores.foldl (fun t c =>
      if (t.core c).hasTasks vf then t.raise 64 7 0 c 0 (t.cycle c) 0 0 0 else t) s1
    let s3 := cores.foldl (fun t c => t.resetCore c vf) s2
    let s4 := (rangeFrom 0 4).foldl (fun t d => t.modDie d fun x => (x.dropVf vf).purge vf s.now) s3
    .next ({ s4 with
      launches := s4.launches.filter fun l => decide (l.vf ≠ vf)
      combiner := s4.combiner.filter fun e => !(s.launches.any fun l => decide (l.id = e.launch ∧ l.vf = vf))
      fly := s4.fly.filter fun f => decide (f.vf ≠ vf)
      hostReqs := s4.hostReqs.filter fun h => decide (h.req.vf ≠ vf ∨ h.req.kind ≠ 0) }.modFn vf fun f =>
        { poisen := f.poisen, ide := f.ide, resetting := true })

/-- FUNCTION_LEVEL_RESET_DONE (R329, R379): once every purge of the partition has ended, the reset is over. -/
def execFunctionLevelResetDone (vf : Nat) (s : State) : Out :=
  if (s.fn vf).resetting ∧ s.dies.all fun kd => kd.2.purging.all fun p => p.2.1 != vf then
    .next ({ s with cores := s.cores.map fun (kc : Nat × Core) =>
      (kc.1, { kc.2 with resetBy := kc.2.resetBy.filter (· != vf) }) }.modFn vf fun f =>
        { f with resetting := false })
  else s.noEvent

end Sys2Proof.Machine
end

