-- ==== Sys2Proof/Machine/Ckpts.lean ====
section
/-!
DEFINITION. Checkpoints to the safe tier, restores and RESUME (R380, R381).
-/
namespace Sys2Proof.Machine

/-- Whether a destination lies in the PF's host segment, by its bits below the one that names the port (R343, R381,
log entry 25). -/
def PfRegs.inSegment (p : PfRegs) (dest : DWord) : Bool :=
  (segOf p.hostSeg).any fun r => decide (r.1 ≤ bits dest 50 0 ∧ bits dest 50 0 < r.1 + r.2)

/-- The destinations are well formed: reserved bits 0, the right port, and inside the PF's host segment (R381). -/
def PfRegs.ckptDestOk (p : PfRegs) : Bool :=
  decide (bits p.ckptda 63 52 = 0 ∧ bits p.ckptdb 63 52 = 0) && !p.ckptda.getLsbD 51 && p.ckptdb.getLsbD 51 &&
    p.inSegment p.ckptda && p.inSegment p.ckptdb

/-- Every block of a scope pre-empted: an uncommitted task is discarded, any other block stops, and a record of a
task not yet acknowledged is given up (R233, R237, R380). -/
def State.preemptScope (s : State) (k : Ckpt) : State :=
  s.cores.foldl (fun t kc =>
    kc.2.blocks.foldl (fun u kb =>
      if !k.scope kb.2.vf ∨ kb.2.ended then u
      else if kb.2.task.isSome && !kb.2.committed then u.discardBlock kc.1 kb.1
      else u.preempt kc.1 kb.1) (t.modCore kc.1 fun x => x.unacked k.scope)) s

/-- A write of CKPT: ignored while GO reads 1, kept without GO, else it begins (R381). -/
def State.ckptWrite (s : State) (value : Nat) (restore : Bool) : Out :=
  let w := BitVec.ofNat 64 value
  let kept : DWord := w &&& 0x33F
  if s.pf.ckpt.getLsbD 63 then .next s
  else if !w.getLsbD 63 then
    .next { s with pf := { s.pf with ckpt := (s.pf.ckpt &&& 0x7000000000000000) ||| kept } }
  else if w.getLsbD 9 != restore then s.noEvent
  else if !s.pf.ckptDestOk then
    .next ({ s with pf := { s.pf with ckpt := kept } }.ckptEnd 4 s.ckpt)
  else
    let k : Ckpt := { restore, whole := w.getLsbD 8, vf := bits w 5 0, startedAt := s.now }
    .next ({ s with pf := { s.pf with ckpt := kept ||| 0xB000000000000000 }, ckpt := some k }.preemptScope k)

/-- CKPT_SAVE (R380, R381). -/
def execCkptSave (value : Nat) (s : State) : Out := s.ckptWrite value false

/-- CKPT_RESTORE (R380, R381). -/
def execCkptRestore (value : Nat) (s : State) : Out := s.ckptWrite value true

/-- Whether every block of a scope is pre-empted and quiet, with no command of the scope left (R380). -/
def State.scopeQuiet (s : State) (k : Ckpt) : Bool :=
  s.cores.all fun kc =>
    (kc.2.blocks.all fun kb => !k.scope kb.2.vf || (kb.2.preempt && s.quiet kc.1 kb.1 kb.2)) &&
      !(kc.2.cmds.any fun m => k.scope m.vf)

/-- The checkpoint in progress of that kind. -/
def State.running? (s : State) (restore : Bool) : Option Ckpt :=
  s.ckpt.filter fun k => k.restore == restore && !k.ended

/-- 0.2 s of the arithmetic clock at 1.4 GHz. -/
def quiesceLimit : Nat := 280000000

/-- QUIESCE_TIMEOUT (R380): pre-emption has taken more than 0.2 s; the checkpoint ends with QUIESCE and its
scope resumes. -/
def execQuiesceTimeout (s : State) : Out :=
  match s.running? false with
  | none => s.noEvent
  | some k =>
    if k.startedAt + quiesceLimit < s.now ∧ !s.scopeQuiet k then .next ((s.unpreempt k.scope).ckptEnd 2 none)
    else s.noEvent

/-- The segments of a scope on a die: byte ranges (R343). -/
def Die.segments (x : Die) (k : Ckpt) : List (Nat × Nat) :=
  (rangeFrom 0 64).filterMap fun v => if k.scope v then segOf (tget 0 x.seg v) else none

/-- Whether an address lies in one of some ranges. -/
def inRanges (l : List (Nat × Nat)) (a : Nat) : Bool := l.any fun r => decide (r.1 ≤ a ∧ a < r.1 + r.2)

/-- The part of a die's tables that lies in some ranges, by a key's address. -/
def rangePart {α : Type} (t : Tbl α) (l : List (Nat × Nat)) (addr : Nat → Nat) : Tbl α :=
  t.filter fun kv => inRanges l (addr kv.1)

/-- Keys in some ranges of one table given the entries of another; both keep their order. -/
def replacePart {α : Type} [DecidableEq α] (d : α) (t new : Tbl α) (l : List (Nat × Nat)) (addr : Nat → Nat) :
    Tbl α :=
  new.foldl (fun t kv => tset d t kv.1 kv.2) (t.filter fun kv => !inRanges l (addr kv.1))

/-- The address of the stripe that holds a side byte (R345). -/
def sideAddr (k : Nat) : Nat := k / 64 * 512

/-- The blocks of a scope on a core saved, each image kept for the tier and for RESUME. -/
def State.saveScope (s : State) (k : Ckpt) : State :=
  s.cores.foldl (fun t kc =>
    (kc.2.blocks.filter fun kb => k.scope kb.2.vf).foldl (fun u kb =>
      match u.block? kc.1 kb.1 with
      | none => u
      | some b =>
        let (u1, v, img) := u.formSaved kc.1 kb.1 b
        u1.leaveCore kc.1 kb.1 { v with image := img, block := { v.block with pinSlot := true } }) t) s

/-- The units in the poison records of a die, each with its first byte and size (R350). -/
def Die.poisoned (x : Die) : List (Nat × Nat) :=
  x.stops.flatMap fun kt => kt.2.record.map fun r => (32 * r.1, granBytes r.2)

/-- Bytes of a die with those of poisoned units as 0xFF, each at the place that `at_` gives it (R380). -/
def maskPoison (x : Die) (t : Tbl Byte) (at_ : Nat → Nat → Nat) : Tbl Byte :=
  x.poisoned.foldl (fun t u => (rangeFrom u.1 u.2).foldl (fun t a => tset 0 t (at_ u.1 a) 0xFF) t) t

/-- The swapped channels of a core that belong to saved blocks of a scope (R204). -/
def Core.swappedChans (x : Core) (k : Ckpt) : List (Nat × Chan) :=
  x.chans.filter fun kc => decide (kc.2.state = 2) &&
    x.saved.any fun v => v.slot == kc.2.block && v.block.pinSlot && !v.late && k.scope v.block.vf

/-- What a checkpoint puts on the tier: segments, with a poisoned unit as bytes of 0xFF, or as it stands when it
goes with CXL poison, poison list, context images and their channels (R380). -/
def State.tierOf (s : State) (k : Ckpt) : Tier :=
  let die {α : Type} (f : Die → List (Nat × Nat) → α) : List (Nat × α) :=
    (rangeFrom 0 4).map fun d => (d, f (s.die d) ((s.die d).segments k))
  let mask (x : Die) (t : Tbl Byte) (at_ : Nat → Nat → Nat) : Tbl Byte := if s.pf.poisen then t else maskPoison x t at_
  { da := s.pf.ckptda, db := s.pf.ckptdb, whole := k.whole, vf := k.vf, cxl := s.pf.poisen
    hbm := die fun x l => rangePart (mask x x.hbm fun u a => dramCell (tget 0 x.wgran (u / 32)) a) l id
    plain := die fun x l => rangePart (mask x x.plain fun _ a => a) l id
    side := die fun x l => rangePart x.side l sideAddr
    wgran := die fun x l => rangePart x.wgran l fun n => 32 * n
    poison := (die fun x l => x.stops.flatMap fun kt => kt.2.record.filter fun r => inRanges l (32 * r.1)).flatMap
      fun dr => dr.2.map fun r => (dr.1, r.1, r.2)
    images := s.cores.flatMap fun kc => (kc.2.saved.filter fun v => k.scope v.block.vf).map fun v => (kc.1, v)
    chans := s.cores.flatMap fun kc => (kc.2.swappedChans k).map fun h => (kc.1, h)
    segs := ((rangeFrom 0 4).flatMap fun d => ((s.die d).segments k).map fun r => (d, r)).foldl
      (fun l r => l ++ [(r.1, r.2.1, r.2.2, (l.getLast?.map fun q => q.2.2.1 + q.2.2.2).getD 0)]) [] }

/-! ### The stream of bytes (log entry 25) -/

/-- Where byte `p` of the stream of a checkpoint lies in host memory: its 64-byte units go to the two destinations in
turn (R380). -/
def Tier.at_ (t : Tier) (p : Nat) : Nat :=
  (if p / 64 % 2 = 0 then t.da.toNat else t.db.toNat) + 64 * (p / 128) + p % 64

/-- The byte of the stream that lies at an address of host memory, of those that the destinations hold. -/
def Tier.place (t : Tier) (a : Nat) : Nat :=
  if t.db.toNat ≤ a then 128 * ((a - t.db.toNat) / 64) + 64 + (a - t.db.toNat) % 64
  else 128 * ((a - t.da.toNat) / 64) + (a - t.da.toNat) % 64

/-- The bytes of the segments together. -/
def Tier.size (t : Tier) : Nat := (t.segs.getLast?.map fun q => q.2.2.1 + q.2.2.2).getD 0

/-- The place in the stream of an address of a die, when a segment holds it. -/
def Tier.placeOf (t : Tier) (d a : Nat) : Option Nat :=
  (t.segs.find? fun q => decide (q.1 = d ∧ q.2.1 ≤ a ∧ a < q.2.1 + q.2.2.1)).map fun q => q.2.2.2 + (a - q.2.1)

/-- The address of a die that a place in the stream holds. -/
def Tier.addrOf (t : Tier) (p : Nat) : Option (Nat × Nat) :=
  (t.segs.find? fun q => decide (q.2.2.2 ≤ p ∧ p < q.2.2.2 + q.2.2.1)).map fun q => (q.1, q.2.1 + (p - q.2.2.2))

/-- The images of the blocks, each filled up to whole units, and after all data the poison list: an entry of 8 bytes
holds the address of a unit, its die in bits [53:52] and its granule in bits [55:54]. -/
def Tier.tail (t : Tier) : List Byte :=
  (t.images.flatMap fun cv => padTo (roundUp cv.2.image.length 64) cv.2.image) ++
    if t.cxl then [] else t.poison.flatMap fun p => natLe (32 * p.2.1 + p.1 * 2 ^ 52 + p.2.2 * 2 ^ 54) 8

/-- The bytes of the segments that differ from 0, by their places in the stream. -/
def Tier.cells (t : Tier) : List (Nat × Byte) :=
  t.hbm.flatMap fun dt => ((dt.2.map fun kv => kv.1 / 512).eraseDups.flatMap fun n => rangeFrom (512 * n) 512).filterMap
    fun a => (t.placeOf dt.1 a).map fun p => (p, tget 0 dt.2 (dramCell (tget 0 (tget [] t.wgran dt.1) (a / 32)) a))

/-- The bytes of a checkpoint written to host memory at its two destinations; the units of host memory that hold a
unit sent with CXL poison carry it (R378, R380). -/
def State.putTier (s : State) (t : Tier) : State :=
  let tail := t.tail
  let units := (t.size + tail.length + 63) / 64
  let mine (a : Nat) : Bool := inRanges [(t.da.toNat, 64 * ((units + 1) / 2)), (t.db.toNat, 64 * (units / 2))] a
  let cells := t.cells ++ cellsAt t.size tail
  let bad := if t.cxl then t.poison.flatMap fun p => (rangeFrom 0 (granBytes p.2.2)).filterMap fun i =>
      (t.placeOf p.1 (32 * p.2.1 + i)).map fun n => t.at_ n / 64 else []
  { s with
    hostMem := cells.foldl (fun m c => tset 0 m (t.at_ c.1) c.2) (s.hostMem.filter fun kv => !mine kv.1)
    hostPoison := bad.foldl (fun m u => tset false m u true) (s.hostPoison.filter fun kv => !mine (64 * kv.1)) }

/-- The bytes of a die's segments as host memory now holds them at the destinations of a checkpoint. -/
def State.tierBytes (s : State) (t : Tier) (d : Nat) : List (Nat × Byte) :=
  (s.hostMem.filter fun kv => inRanges [(t.da.toNat, 64 * ((t.size + 127) / 128)), (t.db.toNat, 64 * (t.size / 128))]
    kv.1).filterMap fun kv => match t.addrOf (t.place kv.1) with
      | some (e, a) => if e = d then some (a, kv.2) else none
      | none => none

/-- The units that a restore enters in the poison record: those of the list, and those of which host memory holds a
part with poison (R351, R371, R380). -/
def State.tierPoison (s : State) (t : Tier) : List (Nat × Nat × Nat) :=
  (if t.cxl then [] else t.poison) ++
    (s.hostPoison.filterMap fun kv =>
      if inRanges [(t.da.toNat, 64 * ((t.size + 127) / 128)), (t.db.toNat, 64 * (t.size / 128))] (64 * kv.1) then
        (t.addrOf (t.place (64 * kv.1))).map fun da =>
          let g := tget 0 (tget [] t.wgran da.1) (da.2 / 32)
          (da.1, da.2 / granBytes g * granBytes g / 32, g)
      else none).eraseDups

/-- CHECKPOINT_DONE (R380): once the scope is quiet and its writes have performed, its images and segments
are on the tier, at the two destinations in host memory; an event of kind 9 follows, and the scope stays pre-empted. -/
def execCheckpointDone (s : State) : Out :=
  match s.running? false with
  | none => s.noEvent
  | some k =>
    if s.scopeQuiet k && !(s.fly.any fun f => k.scope f.vf) then
      let s1 := s.saveScope k
      let t := s1.tierOf k
      let old := s1.tier.filter fun u => decide (u.da ≠ t.da ∨ u.db ≠ t.db)
      .next ({ s1.putTier t with tier := old ++ [t] }.ckptEnd 0 (some { k with ended := true }))
    else s.noEvent

/-- The checkpoint at the destinations of CKPTDA and CKPTDB for a scope. -/
def State.tierFor (s : State) (k : Ckpt) : Option Tier :=
  s.tier.find? fun t => decide (t.da = s.pf.ckptda ∧ t.db = s.pf.ckptdb ∧ t.whole = k.whole ∧ (k.whole ∨ t.vf = k.vf))

/-- A die's segments of a scope take the bytes that host memory holds of a checkpoint, at the granules under which they
were written; a byte that is as it was keeps the value last written to it, and its side bytes (R341, R348, R380). -/
def Die.load (x : Die) (d : Nat) (k : Ckpt) (t : Tier) (bytes : List (Nat × Byte)) : Die :=
  let l := x.segments k
  let wgran := replacePart 0 x.wgran (tget [] t.wgran d) l fun n => 32 * n
  let cell (a : Nat) : Nat := dramCell (tget 0 wgran (a / 32)) a
  let changed := bytes.filter fun c => decide (c.2 ≠ tget 0 (tget [] t.hbm d) (cell c.1))
  { x with
    hbm := bytes.foldl (fun m c => tset 0 m (cell c.1) c.2) (x.hbm.filter fun kv => !inRanges l kv.1)
    plain := changed.foldl (fun m c => tset 0 m c.1 c.2) (replacePart 0 x.plain (tget [] t.plain d) l id)
    side := replacePart 0 x.side (tget [] t.side d) l sideAddr
    wgran
    stops := x.stops.map fun kt =>
      (kt.1, { kt.2 with record := kt.2.record.filter fun r => !inRanges l (32 * r.1) }) }

/-- The segments of a scope as a checkpoint had them, and its poisoned units entered in the poison record again, which
may be full then (R351, R353, R380). -/
def State.loadTier (s : State) (k : Ckpt) (t : Tier) : State :=
  let s1 := (rangeFrom 0 4).foldl (fun u d => u.modDie d fun x => x.load d k t (s.tierBytes t d)) s
  (s.tierPoison t).foldl (fun u p => u.poisonUnit p.1 (64 * p.1) (32 * p.2.1) p.2.2) s1

/-- The blocks of a scope, those on its cores and the context-saved ones, give way to those of a checkpoint, which
bring their channels with them (R204, R296, R305, R380). -/
def State.loadImages (s : State) (k : Ckpt) (t : Tier) : State :=
  let s1 := s.cores.foldl (fun u kc =>
    (kc.2.blocks.filter fun kb => k.scope kb.2.vf).foldl (fun w kb => w.resetBlock kc.1 kb.1) u) s
  let s2 := s1.cores.foldl (fun u kc =>
    let y := u.modCore kc.1 fun x => { x with chans := (kc.2.swappedChans k).foldl (fun t kh => tset {} t kh.1 { gen := kh.2.gen })
                                                x.chans }
    (kc.2.saved.filter fun v => k.scope v.block.vf).foldl (fun w v => (w.resetSaved kc.1 v).modCore kc.1 fun x =>
      { x with saved := x.saved.erase v }) y) s1
  let s3 := t.chans.foldl (fun u ch => u.modCore ch.1 fun x => { x with chans := tset {} x.chans ch.2.1 ch.2.2 }) s2
  t.images.foldl (fun u cv => u.modCore cv.1 fun x => { x with saved := x.saved ++ [cv.2] }) s3

/-- CKPT_RESTORE_DONE (R380): the transfer from the tier ends; segments, poison records and context images
stand as the checkpoint had them, and the scope stays pre-empted. -/
def execCkptRestoreDone (s : State) : Out :=
  match s.running? true with
  | none => s.noEvent
  | some k =>
    match s.tierFor k with
    | none => s.noEvent
    | some t =>
      if s.scopeQuiet k && !(s.fly.any fun f => k.scope f.vf) then
        .next (((s.loadImages k t).loadTier k t).ckptEnd 0 (some { k with ended := true }))
      else s.noEvent

/-- Blocks that a checkpoint saved return to their cores and slots once no checkpoint holds their VF and
there is room (R380). -/
def State.resumeAll (s : State) : State :=
  s.cores.foldl (fun t kc =>
    (kc.2.saved.filter fun v => v.image ≠ [] && !s.ckptHolds v.block.vf).foldl (fun u v =>
      ((u.dropSaved kc.1 v).placeImage kc.1 v.image (some v)).getD u) t) s

/-- RESUME (R380, R381): a 1 in bit 0 resumes the scope that the last checkpoint or restore left
pre-empted. -/
def execResume (value : Nat) (s : State) : Out :=
  match s.ckpt with
  | none => .next s
  | some k => if value % 2 = 1 ∧ k.ended then .next { s with ckpt := none }.resumeAll else .next s

end Sys2Proof.Machine
end

