-- ==== Sys2Proof/Machine/Fen.lean ====
section
/-!
DEFINITION. The FEN instructions (major 0x12, R184, R185, R302 to R305, R367).
-/
namespace Sys2Proof.Machine

/-- Whether a block of code lies in a range of ICINV. -/
def inRange (r : Nat × Nat) (b : Nat) : Bool := decide (r.1 ≤ b ∧ b ≤ r.2)

/-- What a FENCE does about the ICINV ranges of its group: copies the core holds in them are discarded, and so
are those that fetches in flight return (R367). The ranges stand for every later FENCE too. -/
def State.closeIcinv (s : State) (cx : Ctx) : State :=
  let hit (asid b : Nat) : Bool := decide (asid = cx.blk.asid) && cx.grp.icinv.any fun r => inRange r b
  s.modCore cx.core fun x =>
    { x with
      code := x.code.filter fun k => !hit k.asid k.block
      fetches := x.fetches.map fun k => if hit k.asid k.block then { k with dropped := true } else k }

/-- Whether a FENCE may end: its earlier stores and loads have performed and the fetches it waits for have
returned (R184, R367). -/
def fenceOver (s : State) (cx : Ctx) (stores loads : Nat) (fetches : List Nat) : Bool :=
  decide (stores ≤ cx.grp.q.stOut ∧ loads ≤ cx.grp.q.ldOut) &&
    !((s.core cx.core).fetches.any fun k => fetches.contains k.id)

/-- FENCE (R184, R367). At CLUSTER scope and above it bounds the commands accepted before it. -/
def execFence (f : FmtM) (s : State) : Out :=
  s.issue fun cx =>
    match cx.sp.await with
    | .fence n m l => if fenceOver s cx n m l then s.advance cx f.lx else s.waitIn cx (.fence f) (.fence n m l)
    | _ =>
      let l := if cx.grp.icinv = [] then [] else (s.core cx.core).fetches.map (·.id)
      let n := cx.grp.q.stIn
      let m := cx.grp.q.ldIn
      let s1 := s.closeIcinv cx
      let s2 := if 3 ≤ f.scope.toNat then
          s1.modG cx fun g => { g with cmds := { g.cmds with
            fences := tset 0 g.cmds.fences f.scope.toNat s.uidSeq } }
        else s1
      if fenceOver s cx n m l then s2.advance cx f.lx else s2.waitIn cx (.fence f) (.fence n m l)

/-- The global range of a SEAL or UNSEAL: its address modulo 2^64 (R302). -/
def gsealAddr (f : FmtM) (cx : Ctx) : DWord := cx.spair f.sbase.toNat + f.imm20.signExtend 64

/-- A range that a global SEAL or UNSEAL accepts (R302). -/
def gsealOk (a : DWord) (len : Nat) : Bool :=
  decide (bits a 63 56 = 0 ∧ ownerOf a.toNat ≤ 3 ∧ ownerOf (a.toNat + len - 1) = ownerOf a.toNat)

/-- Whether a split drains a scratchpad SEAL, which holds an entry (R185). -/
def Split.sealing (p : Split) : Bool :=
  match p.await with
  | .seal .. => true
  | _ => false

/-- The seal entries of a core in use, with those that draining SEALs hold (R185). -/
def Core.sealsUsed (x : Core) : Nat :=
  x.blocks.foldl (fun n kb => n + kb.2.seals.length) 0 +
    x.groups.foldl (fun n kg => n + (kg.2.splits.filter Split.sealing).length) 0

/-- Whether stores or earlier commands can still write a range of a core's scratchpad (R185). -/
def State.spadBusy (s : State) (home bound a len : Nat) : Bool :=
  (rangeFrom (clusterOf home * 4) 4).any fun c =>
    ((s.core c).groups.any fun kg => kg.2.q.stores.any fun o =>
      decide (o.home = home) && o.cells.any fun e => decide (a ≤ e.1 ∧ e.1 < a + len)) ||
    (s.core c).cmds.any fun m => decide (m.seq < bound) &&
      (match s.block? c m.block with
        | some k => m.writesSpad s c k home a len
        | none => false)

/-- Whether a journal record is of a seal entry of a range made in the interval. -/
def JRec.makes (off len : Nat) : JRec → Bool
  | .sealing a n made _ => made && decide (a = off ∧ n = len)
  | _ => false

/-- The journal record of a seal entry of the block, before its first making or removal in the interval
(R216): an entry made has one of its own, and one removed has when it stood before the interval. The oldest
entry of a range did, when more stand than the interval has made. -/
def State.journalSeal (s : State) (cx : Ctx) (off len : Nat) (made : Bool) : State :=
  match s.block? cx.core cx.grp.block with
  | none => s
  | some k =>
    if made || decide ((k.jrecs.filter (JRec.makes off len)).length < k.seals.count (off, len)) then
      s.journal cx.core cx.grp.block (fun _ => false) (.sealing off len made k.seals)
    else s

/-- A scratchpad SEAL that holds its entry makes it when nothing can still write the range (R185). -/
def sealDrain (f : FmtM) (bound off len : Nat) (s : State) (cx : Ctx) : Out :=
  if s.spadBusy cx.core bound (cx.blk.base + off) len then
    s.waitIn cx (.fseal f) (.seal bound off len)
  else
    ((s.journalSeal cx off len true).modB cx fun k =>
      { k with seals := k.seals ++ [(off, len)] }).advance cx f.lx

/-- A request of the issuing split to an owner die (R298, R303, R305). -/
def askOf (cx : Ctx) (id addr len scope rein : Nat) : Ask :=
  { id, core := cx.core, slot := cx.slot, uid := cx.grp.uid, split := cx.sp.id
    blockUid := cx.blk.uid, vf := cx.blk.vf, asid := cx.blk.asid, addr, len, scope, rein
    block := cx.grp.block, interval := cx.blk.interval }

/-- A global SEAL asks its owner die once the block's earlier commands that can write the range have
completed (R303). -/
def gsealDrain (f : FmtM) (bound addr len : Nat) (s : State) (cx : Ctx) : Out :=
  if ((s.core cx.core).blockCmds cx.grp.block).any fun m =>
      decide (m.seq < bound) && m.writesGlob (s.pgOf cx.blk).rank addr len then
    s.waitIn cx (.fseal f) (.gseal bound addr len)
  else
    let (n, s1) := s.freshUid
    (s1.modCore cx.core fun x => { x with asks := x.asks ++ [(askOf cx n addr len f.scope.toNat 0, false)] }).waitIn cx
      (.fseal f) (.asked n)

/-- SEAL (R185, R302, R303). -/
def execFseal (f : FmtM) (s : State) : Out :=
  s.issue fun cx =>
    match cx.sp.await with
    | .seal bound off len => sealDrain f bound off len s cx
    | .gseal bound a len => gsealDrain f bound a len s cx
    | .asked n => s.waitIn cx (.fseal f) (.asked n)
    | .answered w =>
      if w = 0 then s.advance cx f.lx else s.trap cx cSEALED (BitVec.ofNat 32 (127 + 256))
    | _ =>
      let len := (cx.s (f.vds.toNat % 64)).toNat
      if len = 0 then s.advance cx f.lx
      else if f.scope = 2 then
        let off := (cx.s f.sbase.toNat + f.disp).toNat
        if cx.blk.usable < off + len then s.trap cx cSPADBOUND 127
        else if 16 ≤ (s.core cx.core).sealsUsed then
          s.trap cx cSEALED (BitVec.ofNat 32 (127 + 256))
        else
          sealDrain f s.uidSeq off len s cx
      else
        let a := gsealAddr f cx
        if gsealOk a len then gsealDrain f s.uidSeq a.toNat len s cx
        else s.trap cx cSEALED (BitVec.ofNat 32 (127 + 1024))

/-- The oldest element equal to `x` removed. -/
def dropFirst (x : Nat × Nat) : List (Nat × Nat) → List (Nat × Nat)
  | [] => []
  | y :: l => if y = x then l else y :: dropFirst x l

/-- UNSEAL (R185, R302, R305). -/
def execFunseal (f : FmtM) (s : State) : Out :=
  s.issue fun cx =>
    match cx.sp.await with
    | .asked n => s.waitIn cx (.funseal f) (.asked n)
    | .answered _ => s.advance cx f.lx
    | _ =>
      let len := (cx.s (f.vds.toNat % 64)).toNat
      if len = 0 then s.advance cx f.lx
      else if f.scope = 2 then
        let off := (cx.s f.sbase.toNat + f.disp).toNat
        if cx.blk.seals.contains (off, len) then
          ((s.journalSeal cx off len false).modB cx fun k => { k with seals := dropFirst (off, len) k.seals }).advance
            cx f.lx
        else s.advance cx f.lx
      else
        let a := gsealAddr f cx
        if gsealOk a len then
          let (n, s1) := s.freshUid
          (s1.modCore cx.core fun x => { x with asks := x.asks ++ [(askOf cx n a.toNat len f.scope.toNat 0, true)] }).waitIn
            cx (.funseal f) (.asked n)
        else s.trap cx cSEALED (BitVec.ofNat 32 (127 + 1024))

end Sys2Proof.Machine
end

