-- ==== Sys2Proof/Machine/Cvy.lean ====
section
/-!
DEFINITION. The CVY instructions (major 0x1A, R297 to R300) and the bookkeeping of convoys on their
owner die (R288, R291, R295).
-/
namespace Sys2Proof.Machine

/-- Whether a join or rehitch of a member with frontier `front` is accepted (R295). -/
def Convoy.accepts (v : Convoy) (i front : Nat) : Bool :=
  (v.others i).all fun m => decide (m.front ≤ front + v.rein)

/-- CVMEMBERS of a convoy for member `i` (R300). -/
def Convoy.membersWord (v : Convoy) (i : Nat) : Word :=
  BitVec.ofNat 32 (i * 65536 + (v.members.filter fun km => km.2.isHitched).length * 256 +
    v.members.length)

/-- CVID of a convoy (R289). -/
def cvId (gen die slot : Nat) : Word := BitVec.ofNat 32 (gen * 2 ^ 20 + die * 64 + slot)

/-- The convoy of an identity on its owner die (R288). -/
def Die.convoyOf (d : Die) (vf addr : Nat) : Option (Nat × Convoy) :=
  (d.convoys.find? fun kv => decide (kv.2.vf = vf ∧ kv.2.addr = addr) && decide (kv.2.members ≠ []))

/-- The convoy that a group belongs to has that identity. -/
def State.inConvoy (s : State) (g : Group) (vf addr : Nat) : Bool :=
  match tfind? (s.die (cvDie g.cv.id)).convoys (cvSlot g.cv.id) with
  | some v => decide (v.vf = vf ∧ v.addr = addr)
  | none => false

/-- CVJOIN (R298): leaves another convoy and asks the owner die. An address outside the dies is
answered by die 0. -/
def execCvjoin (f : FmtE) (s : State) : Out :=
  s.issue fun cx =>
    match cx.sp.await with
    | .asked n => s.waitIn cx (.cvjoin f) (.asked n)
    | .answered w => (s.setS cx f.sd.toNat w).advance cx f.lx
    | _ =>
      let a := (cx.spair f.sa.toNat).toNat
      if !cx.anyLaunched then (s.setS cx f.sd.toNat 0).advance cx f.lx
      else
        let s1 := if cx.grp.cv.id ≠ 0 ∧ !s.inConvoy cx.grp cx.blk.vf a then
            s.leaveConvoy cx.core cx.slot
          else s
        let (n, s2) := s1.freshUid
        let d := if ownerOf a ≤ 3 ∧ a < 2 ^ 56 then ownerOf a else 0
        (s2.modDie d fun x =>
          { x with joins := x.joins ++ [{ askOf cx n a 0 0 (cx.s f.sb.toNat).toNat with
                                            part := cx.blk.vf }] }).waitIn cx (.cvjoin f) (.asked n)

/-- CVLEAVE (R299). -/
def execCvleave (f : FmtE) (s : State) : Out :=
  s.issue fun cx =>
    ((s.leaveConvoy cx.core cx.slot).setS cx f.sd.toNat (bool01 (cx.grp.cv.id != 0))).advance cx f.lx

end Sys2Proof.Machine
end

