-- ==== Sys2Proof/Machine/Float.lean ====
section
/-!
DEFINITION. Number formats, exact values and rounding (R16 to R37), the float operations of R108 to
R112, and the functions of R113 and R114. Every operation works on exact values and rounds once.
-/
namespace Sys2Proof.Machine

/-- The families of float formats that differ in their special codes (R21). -/
inductive FClass where
  /-- All-ones exponent: infinity and NaNs (FP32, BF16, FP16, E5M2). -/
  | ieee
  /-- Only the all-ones code is a NaN (E4M3, E3M4). -/
  | oneNan
  /-- Every code is finite (E2M1). -/
  | finite
deriving DecidableEq, Repr

/-- A float format: exponent and fraction bits, bias and class (R21). -/
structure FloatFmt where
  e : Nat
  m : Nat
  bias : Nat
  cls : FClass
deriving DecidableEq, Repr

def fp32 : FloatFmt := ⟨8, 23, 127, .ieee⟩
def bf16 : FloatFmt := ⟨8, 7, 127, .ieee⟩
def fp16 : FloatFmt := ⟨5, 10, 15, .ieee⟩
def e5m2 : FloatFmt := ⟨5, 2, 15, .ieee⟩
def e4m3 : FloatFmt := ⟨4, 3, 7, .oneNan⟩
def e3m4 : FloatFmt := ⟨3, 4, 3, .oneNan⟩
def e2m1 : FloatFmt := ⟨2, 1, 1, .finite⟩

/-- An element format by its code (R16): a float format, or an integer of that width and sign. -/
inductive ElemFmt where
  | float (f : FloatFmt)
  | int (w : Nat) (signed : Bool)
deriving DecidableEq, Repr

/-- The format of a code; 12 to 15 are reserved (R16, R18). -/
def elemFmt (code : Nat) : Option ElemFmt :=
  match code with
  | 0 => some (.float fp32)
  | 1 => some (.float bf16)
  | 2 => some (.float fp16)
  | 3 => some (.int 16 true)
  | 4 => some (.float e5m2)
  | 5 => some (.float e4m3)
  | 6 => some (.float e3m4)
  | 7 => some (.float e2m1)
  | 8 => some (.int 8 true)
  | 9 => some (.int 8 false)
  | 10 => some (.int 4 true)
  | 11 => some (.int 4 false)
  | _ => none

/-- Width in bits of a float format. -/
def FloatFmt.width (f : FloatFmt) : Nat := 1 + f.e + f.m

/-- Width in bits of an element format. -/
def ElemFmt.width : ElemFmt → Nat
  | .float f => f.width
  | .int w _ => w

/-- An exact value: (−1)^neg × num / den × 2^exp, an infinity or a NaN. A zero keeps its sign. -/
inductive FVal where
  | nan
  | inf (neg : Bool)
  | fin (neg : Bool) (num den : Nat) (exp : Int)
deriving DecidableEq, Repr

/-- The value of a float code (R20, R21, R23). -/
def FloatFmt.decode (f : FloatFmt) (code : Nat) : FVal :=
  let neg := (code / 2 ^ (f.e + f.m)) % 2 = 1
  let e := (code / 2 ^ f.m) % 2 ^ f.e
  let m := code % 2 ^ f.m
  let normal : FVal := .fin neg (2 ^ f.m + m) 1 ((e : Int) - f.bias - f.m)
  if e = 0 then .fin neg m 1 (1 - (f.bias : Int) - f.m)
  else if e = 2 ^ f.e - 1 then
    match f.cls with
    | .ieee => if m = 0 then .inf neg else .nan
    | .oneNan => if m = 2 ^ f.m - 1 then .nan else normal
    | .finite => normal
  else normal

/-- An integer as an exact value. -/
def FVal.ofInt (i : Int) : FVal := .fin (i < 0) i.natAbs 1 0

/-- The value of an integer code (R25). -/
def intDecode (w : Nat) (signed : Bool) (code : Nat) : Int :=
  if signed then (BitVec.ofNat w code).toInt else (code % 2 ^ w : Nat)

/-- The value of a code of any element format. -/
def ElemFmt.decode (f : ElemFmt) (code : Nat) : FVal :=
  match f with
  | .float g => g.decode code
  | .int w s => FVal.ofInt (intDecode w s code)

/-- The canonical NaN; code 0 where the format has none (R22, R36). -/
def FloatFmt.nan (f : FloatFmt) : Nat :=
  match f.cls with
  | .ieee => (2 ^ f.e - 1) * 2 ^ f.m + 2 ^ (f.m - 1)
  | .oneNan => 2 ^ (f.e + f.m) - 1
  | .finite => 0

/-- The code of the largest finite magnitude (R21). -/
def FloatFmt.maxFinite (f : FloatFmt) : Nat :=
  match f.cls with
  | .ieee => (2 ^ f.e - 1) * 2 ^ f.m - 1
  | .oneNan => 2 ^ (f.e + f.m) - 2
  | .finite => 2 ^ (f.e + f.m) - 1

/-- The code of +infinity (R21). -/
def FloatFmt.inf (f : FloatFmt) : Nat := (2 ^ f.e - 1) * 2 ^ f.m

/-- A code with its sign bit. -/
def FloatFmt.signed (f : FloatFmt) (neg : Bool) (code : Nat) : Nat :=
  code + neg.toNat * 2 ^ (f.e + f.m)

/-- Rounding modes (R33). RS carries its random field and its width (R34). -/
inductive RMode where
  | rne | rz | ru | rd
  | rs (r w : Nat)
deriving DecidableEq, Repr

/-- The mode of an RM or CVM code, with the random field and width that RS would use. -/
def rmode (code r w : Nat) : RMode :=
  match code with
  | 0 => .rne
  | 1 => .rz
  | 2 => .ru
  | 3 => .rd
  | _ => .rs (r % 2 ^ w) w

/-- Whether a magnitude i + rem / den units is rounded up to i + 1 (R33, R34). -/
def RMode.up (m : RMode) (neg : Bool) (i rem den : Nat) : Bool :=
  match m with
  | .rne => decide (den < 2 * rem ∨ (2 * rem = den ∧ i % 2 = 1))
  | .rz => false
  | .ru => decide (0 < rem) && !neg
  | .rd => decide (0 < rem) && neg
  | .rs r w => decide (2 ^ w ≤ rem * 2 ^ w / den + r)

/-- A magnitude num / den × 2^exp in units of 2^q: whole units and the fraction's numerator and
denominator. -/
def inUnits (num den : Nat) (exp q : Int) : Nat × Nat × Nat :=
  let n := if q ≤ exp then num * 2 ^ (exp - q).toNat else num
  let d := if q ≤ exp then den else den * 2 ^ (q - exp).toNat
  (n / d, n % d, d)

/-- A magnitude rounded to whole units of 2^q (R33). -/
def roundUnits (m : RMode) (neg : Bool) (num den : Nat) (exp q : Int) : Nat :=
  let (i, r, d) := inUnits num den exp q
  if m.up neg i r d then i + 1 else i

/-- The exponent e with 2^e ≤ num / den × 2^exp < 2^(e+1), for a nonzero magnitude. -/
def expOf (num den : Nat) (exp : Int) : Int :=
  let g : Int := (Nat.log2 num : Int) - Nat.log2 den
  -- num / den lies in (2^(g-1), 2^(g+1))
  let ge : Bool := if 0 ≤ g then decide (den * 2 ^ g.toNat ≤ num) else decide (den ≤ num * 2 ^ (-g).toNat)
  (if ge then g else g - 1) + exp

/-- An overflow of a float format resolved (R35). -/
def FloatFmt.overflow (f : FloatFmt) (m : RMode) (sat neg : Bool) : Nat :=
  if sat then f.signed neg f.maxFinite
  else
    match f.cls with
    | .oneNan => f.nan
    | .finite => f.signed neg f.maxFinite
    | .ieee =>
      match m, neg with
      | .rz, _ => f.signed neg f.maxFinite
      | .ru, true => f.signed true f.maxFinite
      | .rd, false => f.maxFinite
      | _, _ => f.signed neg f.inf

/-- The code of a magnitude of j units of 2^q, which is representable but for overflow. -/
def FloatFmt.pack (f : FloatFmt) (m : RMode) (sat neg : Bool) (j : Nat) (q : Int) : Nat :=
  let (j, q) := if 2 ^ (f.m + 1) ≤ j then (j / 2, q + 1) else (j, q)
  let code :=
    if j < 2 ^ f.m then j else ((q + f.m + f.bias).toNat) * 2 ^ f.m + (j - 2 ^ f.m)
  if f.maxFinite < code then f.overflow m sat neg else f.signed neg code

/-- A value rounded into a float format (R33 to R37). -/
def FloatFmt.round (f : FloatFmt) (m : RMode) (sat : Bool) (v : FVal) : Nat :=
  match v with
  | .nan => f.nan
  | .inf neg =>
    match f.cls with
    | .ieee => f.signed neg f.inf
    | _ => f.overflow m sat neg
  | .fin neg num den exp =>
    if num = 0 then f.signed neg 0
    else
      let emin : Int := 1 - f.bias
      let e := expOf num den exp
      let q := (if e < emin then emin else e) - f.m
      f.pack m sat neg (roundUnits m neg num den exp q) q

/-- A value rounded into an integer format and clamped (R35, R36). -/
def intRound (w : Nat) (signed : Bool) (m : RMode) (v : FVal) : Nat :=
  let lo : Int := if signed then -(2 : Int) ^ (w - 1) else 0
  let hi : Int := if signed then (2 : Int) ^ (w - 1) - 1 else (2 : Int) ^ w - 1
  let clamp (x : Int) : Int := if x < lo then lo else if hi < x then hi else x
  let i : Int :=
    match v with
    | .nan => 0
    | .inf neg => if neg then lo else hi
    | .fin neg num den exp =>
      let j : Int := roundUnits m neg num den exp 0
      clamp (if neg then -j else j)
  (BitVec.ofInt w i).toNat

/-- A value rounded into any element format. -/
def ElemFmt.round (f : ElemFmt) (m : RMode) (sat : Bool) (v : FVal) : Nat :=
  match f with
  | .float g => g.round m sat v
  | .int w s => intRound w s m v

/-! ### Exact arithmetic -/

/-- The value with its sign inverted; a NaN stays a NaN (R109). -/
def FVal.neg : FVal → FVal
  | .nan => .nan
  | .inf n => .inf !n
  | .fin n a d e => .fin (!n) a d e

/-- The exact product; 0 × ∞ is a NaN (R108). -/
def FVal.mul : FVal → FVal → FVal
  | .nan, _ => .nan
  | _, .nan => .nan
  | .inf a, .inf b => .inf (a != b)
  | .inf a, .fin b n _ _ => if n = 0 then .nan else .inf (a != b)
  | .fin a n _ _, .inf b => if n = 0 then .nan else .inf (a != b)
  | .fin a n d e, .fin b n' d' e' => .fin (a != b) (n * n') (d * d') (e + e')

/-- Whether a mode gives −0 for an exact zero sum of opposite values (R37). -/
def RMode.zeroNeg : RMode → Bool
  | .rd => true
  | _ => false

/-- The exact sum; ∞ − ∞ is a NaN; the sign of an exact zero follows R37. -/
def FVal.add (m : RMode) : FVal → FVal → FVal
  | .nan, _ => .nan
  | _, .nan => .nan
  | .inf a, .inf b => if a = b then .inf a else .nan
  | .inf a, .fin .. => .inf a
  | .fin .., .inf b => .inf b
  | .fin a n d e, .fin b n' d' e' =>
    let q := if e ≤ e' then e else e'
    let x : Int := (n * d' * 2 ^ (e - q).toNat : Nat)
    let y : Int := (n' * d * 2 ^ (e' - q).toNat : Nat)
    let s : Int := (if a then -x else x) + (if b then -y else y)
    if s = 0 then .fin (if a = b then a else m.zeroNeg) 0 1 0
    else .fin (s < 0) s.natAbs (d * d') q

/-- The exact quotient (R114). -/
def FVal.div : FVal → FVal → FVal
  | .nan, _ => .nan
  | _, .nan => .nan
  | .inf _, .inf _ => .nan
  | .inf a, .fin b .. => .inf (a != b)
  | .fin a .., .inf b => .fin (a != b) 0 1 0
  | .fin a n d e, .fin b n' d' e' =>
    if n' = 0 then (if n = 0 then .nan else .inf (a != b))
    else .fin (a != b) (n * d') (d * n') (e - e')

/-- Whether a < b, for values that are no NaN; zeros are equal (R107). -/
def FVal.lt : FVal → FVal → Bool
  | .nan, _ => false
  | _, .nan => false
  | .inf a, .inf b => a && !b
  | .inf a, .fin .. => a
  | .fin .., .inf b => !b
  | .fin a n d e, .fin b n' d' e' =>
    match FVal.add .rne (.fin a n d e) (FVal.neg (.fin b n' d' e')) with
    | .fin s k _ _ => s && decide (k ≠ 0)
    | _ => false

/-- Whether a value is a NaN. -/
def FVal.isNan : FVal → Bool
  | .nan => true
  | _ => false

/-- The sign of a value that is no NaN. -/
def FVal.sign : FVal → Bool
  | .nan => false
  | .inf n => n
  | .fin n .. => n

/-- The class bit of a code for VFCLASS (R107). -/
def FloatFmt.classBit (f : FloatFmt) (code : Nat) : Nat :=
  let e := (code / 2 ^ f.m) % 2 ^ f.e
  match f.decode code with
  | .nan => 0
  | .inf neg => if neg then 1 else 7
  | .fin neg num _ _ =>
    if num = 0 then 4
    else if e = 0 then (if neg then 3 else 5)
    else (if neg then 2 else 6)

/-- VFMIN (`least`) and VFMAX of two codes, −0 below +0 (R110). -/
def FloatFmt.minmax (f : FloatFmt) (least : Bool) (a b : Nat) : Nat :=
  let x := f.decode a
  let y := f.decode b
  if x.isNan || y.isNan then f.nan
  else
    let aLess := x.lt y || (!y.lt x && x.sign && !y.sign)
    let bLess := y.lt x || (!x.lt y && y.sign && !x.sign)
    if least then (if bLess then b else a) else (if aLess then b else a)

/-- VFRINT: rounded to an integral value of the same format (R112). -/
def FloatFmt.rint (f : FloatFmt) (m : RMode) (a : Nat) : Nat :=
  match f.decode a with
  | .nan => f.nan
  | .inf _ => a
  | .fin neg num den exp =>
    if num = 0 ∨ 0 ≤ exp then a
    else f.round .rz false (.fin neg (roundUnits m neg num den exp 0) 1 0)

/-! ### Square roots -/

/-- The integer square root by bits: `n` steps from bit `n - 1`. -/
def isqrtFrom (x : Nat) : Nat → Nat → Nat
  | 0, r => r
  | n + 1, r => isqrtFrom x n (if (r + 2 ^ n) * (r + 2 ^ n) ≤ x then r + 2 ^ n else r)

/-- The greatest r with r² ≤ x. -/
def isqrt (x : Nat) : Nat := isqrtFrom x (Nat.log2 x / 2 + 1) 0

/-- The square root of num / den × 2^exp: exact, or a value strictly between the two neighbouring
multiples of a 2^−101 fraction of it, which rounds as the root does. -/
def sqrtVal (num den : Nat) (exp : Int) : FVal :=
  let odd := exp % 2 = 1
  let n := if odd then 2 * num else num
  let e := if odd then exp - 1 else exp
  let k : Nat := 160
  let x := n * 4 ^ k / den
  let r := isqrt x
  if r * r * den = n * 4 ^ k then .fin false r 1 (e / 2 - k)
  else .fin false (2 * r + 1) 1 (e / 2 - k - 1)

/-- √a (R114). -/
def FVal.sqrt : FVal → FVal
  | .nan => .nan
  | .inf n => if n then .nan else .inf false
  | .fin n a d e => if a = 0 then .fin n 0 1 0 else if n then .nan else sqrtVal a d e

/-- 1 / √a (R114). -/
def FVal.rsqrt : FVal → FVal
  | .nan => .nan
  | .inf n => if n then .nan else .fin false 0 1 0
  | .fin n a d e => if a = 0 then .inf n else if n then .nan else sqrtVal d a (-e)

/-! ### Functions by interval arithmetic

An interval (lo, hi) of integers at precision p encloses a real x when lo ≤ x × 2^p ≤ hi. -/

/-- An interval of nonnegative numbers at some precision. -/
abbrev Ivl := Nat × Nat

/-- a / b rounded up. -/
def ceilDiv (a b : Nat) : Nat := (a + b - 1) / b

/-- The product of two intervals at precision p. -/
def Ivl.mul (p : Nat) (x y : Ivl) : Ivl := (x.1 * y.1 / 2 ^ p, ceilDiv (x.2 * y.2) (2 ^ p))

/-- The quotient of two intervals at precision p; the divisor is positive. -/
def Ivl.div (p : Nat) (x y : Ivl) : Ivl := (x.1 * 2 ^ p / y.2, ceilDiv (x.2 * 2 ^ p) y.1)

/-- The rational n / d at precision p. -/
def Ivl.rat (p n d : Nat) : Ivl := (n * 2 ^ p / d, ceilDiv (n * 2 ^ p) d)

/-- The sum of the series of e^y for y in [0, 1): `n` terms from term `k`, then a bound of the rest. -/
def expTerms (p : Nat) (y : Ivl) : Nat → Nat → Ivl → Ivl → Ivl
  | 0, _, t, acc => (acc.1, acc.2 + 2 * t.2 + 2)
  | n + 1, k, t, acc =>
    let u := Ivl.mul p t y
    let t' : Ivl := (u.1 / (k + 1), ceilDiv u.2 (k + 1))
    expTerms p y n (k + 1) t' (acc.1 + t'.1, acc.2 + t'.2)

/-- e^y for y in [0, 1). -/
def expUnit (p : Nat) (y : Ivl) : Ivl := expTerms p y (p / 4 + 8) 0 (2 ^ p, 2 ^ p) (2 ^ p, 2 ^ p)

/-- A square taken `n` times. -/
def squareN (p : Nat) : Nat → Ivl → Ivl
  | 0, x => x
  | n + 1, x => squareN p n (Ivl.mul p x x)

/-- e^(n/d) for n/d below 256. -/
def expRat (p n d : Nat) : Ivl := squareN p 8 (expUnit p (Ivl.rat p n (d * 256)))

/-- The series of atanh z for z in [0, 1/3]: `n` terms of index 2k + 1. -/
def atanhTerms (p : Nat) (z2 : Ivl) : Nat → Nat → Ivl → Ivl → Ivl
  | 0, _, t, acc => (acc.1, acc.2 + 2 * t.2 + 2)
  | n + 1, k, t, acc =>
    atanhTerms p z2 n (k + 1) (Ivl.mul p t z2)
      (acc.1 + t.1 / (2 * k + 1), acc.2 + ceilDiv t.2 (2 * k + 1))

/-- atanh z for z in [0, 1/3]. -/
def atanhI (p : Nat) (z : Ivl) : Ivl := atanhTerms p (Ivl.mul p z z) (p / 3 + 8) 0 z (0, 0)

/-- ln 2 = 2 atanh (1/3). -/
def ln2I (p : Nat) : Ivl :=
  let a := atanhI p (Ivl.rat p 1 3)
  (2 * a.1, 2 * a.2)

/-- The series of atan (1/m), `n` terms from index 2k + 1, positive and negative terms apart. -/
def atanTerms (p m : Nat) : Nat → Nat → Nat → Ivl × Ivl → Ivl × Ivl
  | 0, _, _, acc => acc
  | n + 1, k, pow, acc =>
    let t : Ivl := Ivl.rat p 1 (pow * (2 * k + 1))
    atanTerms p m n (k + 1) (pow * m * m)
      (if k % 2 = 0 then ((acc.1.1 + t.1, acc.1.2 + t.2), acc.2)
       else (acc.1, (acc.2.1 + t.1, acc.2.2 + t.2)))

/-- atan (1/m) for m ≥ 5; the rest of the series is below its last term. -/
def atanInv (p m : Nat) : Ivl :=
  let a := atanTerms p m (p / 4 + 8) 0 m ((0, 0), (0, 0))
  (a.1.1 - a.2.2 - 1, a.1.2 - a.2.1 + 1)

/-- π = 16 atan (1/5) − 4 atan (1/239). -/
def piI (p : Nat) : Ivl :=
  let a := atanInv p 5
  let b := atanInv p 239
  (16 * a.1 - 4 * b.2, 16 * a.2 - 4 * b.1)

/-- The series of sin y for y in [0, 2): positive and negative terms apart. -/
def sinTerms (p : Nat) (y2 : Ivl) : Nat → Nat → Ivl → Ivl × Ivl → Ivl × Ivl
  | 0, _, t, acc => ((acc.1.1, acc.1.2 + t.2 + 1), (acc.2.1, acc.2.2 + t.2 + 1))
  | n + 1, k, t, acc =>
    let u := Ivl.mul p t y2
    let d := (2 * k + 2) * (2 * k + 3)
    let t' : Ivl := (u.1 / d, ceilDiv u.2 d)
    sinTerms p y2 n (k + 1) t'
      (if k % 2 = 0 then ((acc.1.1 + t.1, acc.1.2 + t.2), acc.2)
       else (acc.1, (acc.2.1 + t.1, acc.2.2 + t.2)))

/-- sin (π × n / d) for n / d in [0, 1/2]. -/
def sinPi (p n d : Nat) : Ivl :=
  let y := Ivl.mul p (piI p) (Ivl.rat p n d)
  let a := sinTerms p (Ivl.mul p y y) (p / 4 + 8) 0 y ((0, 0), (0, 0))
  (a.1.1 - a.2.2, a.1.2 - a.2.1)

/-- The precisions tried. -/
def precisions : List Nat := [256, 400, 700, 1200]

/-- The RNE code of a real known by intervals: the first precision at which both ends round alike.
None when none does. `exp` scales the interval by 2^exp. -/
def FloatFmt.settle (f : FloatFmt) (sat neg : Bool) (exp : Int) (x : Nat → Ivl) : List Nat → Option Nat
  | [] => none
  | p :: ps =>
    let v := x p
    let lo := f.round .rne sat (.fin neg v.1 1 (exp - p))
    let hi := f.round .rne sat (.fin neg v.2 1 (exp - p))
    if lo = hi then some lo else f.settle sat neg exp x ps

/-- A magnitude num × 2^exp as a fraction n / d. -/
def fracOf (num : Nat) (exp : Int) : Nat × Nat :=
  if 0 ≤ exp then (num * 2 ^ exp.toNat, 1) else (num, 2 ^ (-exp).toNat)

/-- A result that is one of the exact ones, or a real known by intervals (R113, R114). -/
inductive FRes where
  | exact (v : FVal)
  | real (neg : Bool) (exp : Int) (x : Nat → Ivl)

/-- Whether a finite magnitude num × 2^exp is at least 2^k (for num below 2^24). -/
def hugeAt (num : Nat) (exp : Int) (k : Nat) : Bool := decide ((k : Int) ≤ expOf num 1 exp)

/-- 2^a (R113, R114). -/
def fexp2 : FVal → FRes
  | .nan => .exact .nan
  | .inf n => .exact (if n then .fin false 0 1 0 else .inf false)
  | .fin neg num _ exp =>
    if num = 0 then .exact (.fin false 1 1 0)
    else if hugeAt num exp 11 then .exact (.fin false 1 1 (if neg then -2048 else 2048))
    else
      let (n, d) := fracOf num exp
      let i : Int := if neg then -((ceilDiv n d : Nat) : Int) else (n / d : Nat)
      let f := if neg then ceilDiv n d * d - n else n % d
      if f = 0 then .exact (.fin false 1 1 i)
      else .real false i fun p => expUnit p (Ivl.mul p (ln2I p) (Ivl.rat p f d))

/-- log₂ a (R113, R114). -/
def flog2 : FVal → FRes
  | .nan => .exact .nan
  | .inf n => .exact (if n then .nan else .inf false)
  | .fin neg num _ exp =>
    if num = 0 then .exact (.inf true)
    else if neg then .exact .nan
    else
      let k := Nat.log2 num
      let e : Int := exp + k
      if num = 2 ^ k then .exact (FVal.ofInt e)
      else
        -- a = 2^e × m with m = num / 2^k in (1, 2); log₂ m = 2 atanh ((m − 1) / (m + 1)) / ln 2
        let frac (p : Nat) : Ivl :=
          let a := atanhI p (Ivl.rat p (num - 2 ^ k) (num + 2 ^ k))
          Ivl.div p (2 * a.1, 2 * a.2) (ln2I p)
        if 0 ≤ e then .real false 0 fun p =>
          ((frac p).1 + e.toNat * 2 ^ p, (frac p).2 + e.toNat * 2 ^ p)
        else .real true 0 fun p =>
          ((-e).toNat * 2 ^ p - (frac p).2, (-e).toNat * 2 ^ p - (frac p).1)

/-- sin (π × n / d × (−1)^neg) for any fraction (R113, R114). -/
def sinTurn (neg : Bool) (n d : Nat) : FRes :=
  let r := n % (2 * d)
  let flip := decide (d ≤ r)
  let r1 := r % d
  if r1 = 0 then .exact (.fin false 0 1 0)
  else if 2 * r1 = d then .exact (.fin (neg != flip) 1 1 0)
  else .real (neg != flip) 0 fun p => sinPi p (if d < 2 * r1 then d - r1 else r1) d

/-- sin (π a): ±0 stays, a nonzero integer gives +0 (R114). -/
def fsin : FVal → FRes
  | .nan => .exact .nan
  | .inf _ => .exact .nan
  | .fin neg num _ exp =>
    if num = 0 then .exact (.fin neg 0 1 0)
    else if 2 ≤ exp then .exact (.fin false 0 1 0)
    else
      let (n, d) := fracOf num exp
      sinTurn neg n d

/-- cos (π a) = sin (π (|a| + 1/2)); n + 0.5 gives +0 (R114). -/
def fcos : FVal → FRes
  | .nan => .exact .nan
  | .inf _ => .exact .nan
  | .fin _ num _ exp =>
    if 2 ≤ exp then .exact (.fin false 1 1 0)
    else
      let (n, d) := fracOf num exp
      sinTurn false (2 * n + d) (2 * d)

/-- tanh a = (e^(2|a|) − 1) / (e^(2|a|) + 1) with the sign of a (R113, R114). -/
def ftanh : FVal → FRes
  | .nan => .exact .nan
  | .inf n => .exact (.fin n 1 1 0)
  | .fin neg num _ exp =>
    if num = 0 then .exact (.fin neg 0 1 0)
    else if hugeAt num exp 6 then .real neg 0 fun p => (2 ^ p - 2 ^ (p - 100), 2 ^ p)
    else
      let (n, d) := fracOf num exp
      .real neg 0 fun p =>
        let e := expRat p (2 * n) d
        Ivl.div p (e.1 - 2 ^ p, e.2 - 2 ^ p) (e.1 + 2 ^ p, e.2 + 2 ^ p)

/-- 1 / (1 + e^−a) (R113, R114). -/
def fsigm : FVal → FRes
  | .nan => .exact .nan
  | .inf n => .exact (if n then .fin false 0 1 0 else .fin false 1 1 0)
  | .fin neg num _ exp =>
    if num = 0 then .exact (.fin false 1 1 (-1))
    else if hugeAt num exp 8 then
      .real false 0 fun p => if neg then (0, 2 ^ (p - 250)) else (2 ^ p - 2 ^ (p - 250), 2 ^ p)
    else
      let (n, d) := fracOf num exp
      .real false 0 fun p =>
        let e := expRat p n d
        if neg then Ivl.div p (2 ^ p, 2 ^ p) (e.1 + 2 ^ p, e.2 + 2 ^ p)
        else Ivl.div p e (e.1 + 2 ^ p, e.2 + 2 ^ p)

/-- The code of a result rounded RNE; none when no precision tried decides it. -/
def FloatFmt.ofRes (f : FloatFmt) (sat : Bool) : FRes → Option Nat
  | .exact v => some (f.round .rne sat v)
  | .real neg exp x => f.settle sat neg exp x precisions

end Sys2Proof.Machine
end

