-- ==== Sys2Proof/Machine/Sat.lean ====
section
/-!
DEFINITION. The scratchpad atomics (major 0x11, R181 to R183).
-/
namespace Sys2Proof.Machine

/-- The value of `b` bytes as a number of 8 b bits and back. -/
def binop (b : Nat) (g : BitVec (8 * b) → BitVec (8 * b) → BitVec (8 * b) → BitVec (8 * b))
    (old x n : Nat) : Nat :=
  (g (BitVec.ofNat _ old) (BitVec.ofNat _ x) (BitVec.ofNat _ n)).toNat

/-- What the lanes of an atomic leave: the scratchpad, the cells written and each lane's old value. -/
structure AtomAcc where
  mem : Tbl Byte
  cells : List (Nat × Byte)
  old : Tbl (List Byte)

/-- One lane of an atomic (R182). `second` is the register that holds n. -/
def atomLane (f : FmtM) (cx : Ctx) (p : Loc) (second : Nat) (g : Nat → Nat → Nat → Nat)
    (a : AtomAcc) (l : Nat) : AtomAcc :=
  let b := szBytes f.sz
  let adr := p.base + (f.offset cx l).toNat
  let old := tblBytes a.mem adr b
  let new := natLe (g (leNat old) (leNat (cx.vbytes f.vds.toNat l b))
    (leNat (cx.vbytes second l b))) b
  { mem := tblWrite a.mem adr new, cells := a.cells ++ cellsAt adr new, old := tput a.old l old }

/-- An atomic of new-value function `g`: one step once the store queue is empty (R182). -/
def atomic (f : FmtM) (s : State) (g : Nat → Nat → Nat → Nat) : Out :=
  s.issue fun cx =>
    if cx.grp.q.busy then s.heldAt
    else
      let p := locOf f.scope (cx.s f.sbase.toNat) cx s
      let m := cx.participants f.km
      match firstFail cx (lanesOf m) fun l =>
          p.check s ⟨true, true⟩ (f.offset cx l) (szBytes f.sz) with
      | some (l, c) => s.trap cx c (p.info l)
      | none =>
        let a := (lanesOf m).foldl
          (atomLane f cx p (f.vds.toNat + szWords f.sz) g) ⟨(s.core p.home).spad, [], []⟩
        ((s.writeSpad (some (cx.core, cx.grp.block)) p.home a.cells false false).setVs cx f.vds.toNat
          (szWords f.sz) m fun l => (tfind? a.old l).getD []).advance cx f.lx

/-- AADD (R181). -/
def execAadd (f : FmtM) (s : State) : Out := atomic f s (binop (szBytes f.sz) fun o x _ => o + x)

/-- ASUB (R181). -/
def execAsub (f : FmtM) (s : State) : Out := atomic f s (binop (szBytes f.sz) fun o x _ => o - x)

/-- AMIN (R181): signed minimum. -/
def execAmin (f : FmtM) (s : State) : Out :=
  atomic f s (binop (szBytes f.sz) fun o x _ => if BitVec.slt x o then x else o)

/-- AMAX (R181): signed maximum. -/
def execAmax (f : FmtM) (s : State) : Out :=
  atomic f s (binop (szBytes f.sz) fun o x _ => if BitVec.slt o x then x else o)

/-- AMINU (R181): unsigned minimum. -/
def execAminu (f : FmtM) (s : State) : Out :=
  atomic f s (binop (szBytes f.sz) fun o x _ => if BitVec.ult x o then x else o)

/-- AMAXU (R181): unsigned maximum. -/
def execAmaxu (f : FmtM) (s : State) : Out :=
  atomic f s (binop (szBytes f.sz) fun o x _ => if BitVec.ult o x then x else o)

/-- AAND (R181). -/
def execAand (f : FmtM) (s : State) : Out := atomic f s (binop (szBytes f.sz) fun o x _ => o &&& x)

/-- AOR (R181). -/
def execAor (f : FmtM) (s : State) : Out := atomic f s (binop (szBytes f.sz) fun o x _ => o ||| x)

/-- AXOR (R181). -/
def execAxor (f : FmtM) (s : State) : Out := atomic f s (binop (szBytes f.sz) fun o x _ => o ^^^ x)

/-- AXCHG (R181). -/
def execAxchg (f : FmtM) (s : State) : Out := atomic f s (binop (szBytes f.sz) fun _ x _ => x)

/-- ACAS (R181, R182): n if old = x. -/
def execAcas (f : FmtM) (s : State) : Out :=
  atomic f s (binop (szBytes f.sz) fun o x n => if o = x then n else o)

/-- The F32 sum of two codes, RNE (R183). -/
def faddCode (o x : Nat) : Nat :=
  fp32.round .rne false (FVal.add .rne (fp32.decode o) (fp32.decode x))

/-- AFADD (R183). -/
def execAfadd (f : FmtM) (s : State) : Out := atomic f s fun o x _ => faddCode o x

end Sys2Proof.Machine
end

