-- ==== Sys2Proof/Machine/Stops.lean ====
section
/-!
DEFINITION. Translation of unit requests and the memory stops as agents: Fold entries, writes and
atomics at their home, global seals and replicas, and the host ports (R278 to R286, R303 to R305,
R340, R341, R361, R371).
-/
namespace Sys2Proof.Machine

/-! ### Translation slices (R341) -/

/-- The size of the page that holds an address, 64 KiB where none is mapped. -/
def Die.pageSize (x : Die) (asid vf va : Nat) : Nat :=
  match x.walk asid vf va with
  | some (_, n) => n
  | none => 65536

/-- Whether a walk in progress is for the page of an address (R341). -/
def Die.walking (x : Die) (asid va : Nat) : Bool :=
  x.walks.any fun w => decide (w.asid = asid ∧
    w.va / x.pageSize asid w.vf w.va = va / x.pageSize asid w.vf w.va)

/-- A request taken out of the translation queue of a die. -/
def State.dropXlat (s : State) (d id : Nat) : State :=
  s.modDie d fun x => { x with xlat := x.xlat.filter fun r => decide (r.id ≠ id) }

/-- A unit request that fails: its engine learns the status, and the unit has no other effect (R193,
R340). -/
def State.failReq (s : State) (r : Req) (st : Word) : State :=
  if s.calledOff r.id then s.landed r.id
  else if r.kind = 1 then (s.lateStatus r.core r.uid r.seq st).landed r.id
  else (s.answer r.core r.seq r.id r.va [] false st).landed r.id

/-- A request cut where its translated unit ends: the rest waits under a number of its own (R337). -/
def State.cutReq (s : State) (d : Nat) (r : Req) (unit : Nat) : Req × State :=
  let k := unit - r.va % unit
  if r.len ≤ k ∨ r.kind = 2 then (r, s)
  else
    let (n, s1) := s.freshUid
    let rest : Req := { r with id := n, va := r.va + k, len := r.len - k, data := r.data.drop k }
    let s2 := s1.modDie d fun x => { x with xlat := x.xlat ++ [rest] }
    let s3 := s2.modCmd r.core r.seq fun m =>
      { m with pend := m.pend.flatMap fun p =>
          if p.1 = r.id then [(p.1, p.2.1, k, p.2.2.2), (n, p.2.1 + k, p.2.2.1 - k, p.2.2.2 + k)]
          else [p] }
    let s4 := { s3 with fly := s3.fly.flatMap fun f =>
      if f.id = r.id then [f, { f with id := n, va := r.va + k }] else [f] }
    ({ r with len := k, data := r.data.take k }, s4)

/-- The packet of a translated request, bound for its stop, or for that of the replica that is to serve it
(R304, R308, R313). -/
def stopPacket (d : Nat) (r : Req) : Packet :=
  let t := stopOfPa r.pa
  { dests := [(r.replica.getD d, stopRouter t, stopPort t)], route := 0, kind := 0, cls := if r.lat then 0 else 1
    part := r.vf, payload := .req r, srcX := clusterOf r.core % 4 }

/-- The entry point at which a translated request enters its owner's mesh (R312). -/
def Req.entry (r : Req) : Nat :=
  if r.port = pLocal then r.router else laneEntry (r.router % 4) (r.port == pS)

/-- The replica that may serve a read of a core on another die: a copy of the same physical unit for the
same VF, while the unit lies in a sealed range (R304, R361). -/
def Die.replicaFor (x : Die) (r : Req) : Option Replica :=
  x.replicas.find? fun p =>
    decide (p.target = dieOf r.core ∧ p.vf = r.vf ∧ p.pa = r.pa ∧ p.unit = r.unit ∧ p.leaf.enc = r.leaf.enc ∧
      p.leaf.integ = r.leaf.integ) && p.covered (x.gseals.filter fun e => !e.ended)

/-- A read that a replica is to serve, noted with it (R305). -/
def State.noteRead (s : State) (d : Nat) (p : Replica) (id : Nat) : State :=
  s.modDie d fun x => { x with replicas := x.replicas.map fun q =>
    if q = p then { q with reads := id :: q.reads.filter s.awaited } else q }

/-- A translated request sent on: to a host port, which accepts it, or into the mesh toward its stop;
none while the mesh shows a stall (R315, R344, R362). -/
def State.routeReq (s : State) (d : Nat) (r : Req) : Option State :=
  if r.va / 2 ^ 53 % 8 = 4 then
    let a := r.pa + r.va % 64
    some { s with
      hostReqs := s.hostReqs ++ [{ req := r, port := r.pa / 2 ^ 51 % 2, addr := a }]
      fly := s.fly.map fun f => if f.id = r.id then { f with stage := 2 } else f }
  else
    let p := stopPacket d r
    if (s.die d).canInject r.entry r.router r.port s.now [] p then
      some (s.modDie d fun x => x.inject d r.entry r.router r.port s.now [] p)
    else none

/-- A request whose slice entry is found: checks 3 to 6 of R340, then it goes on. -/
def State.translated (s : State) (d : Nat) (r : Req) (e : TlbEntry) : Option State :=
  match (s.die d).place r.vf r.va r.kind e.leaf e.size with
  | .error st => some ((s.dropXlat d r.id).failReq r st)
  | .ok t =>
    let (r1, s1) := (s.dropXlat d r.id).cutReq d r t.unit
    let r2 := { r1 with pa := t.pa, unit := t.unit, leaf := t.leaf, page := (e.va, e.size) }
    match (if r.kind = 0 then (s.die d).replicaFor r2 else none) with
    | some p =>
      let (n, s2) := s1.freshFree
      if Config.freeBool n then
        (s2.noteRead d p r2.id).routeReq d { r2 with pa := p.frame, replica := some p.target, home := some (d, t.pa) }
      else s2.routeReq d r2
    | none => s1.routeReq d r2

/-- UNIT_TRANSLATION (R337, R340, R341): request number `unit` of a die is translated through its
slices, or a walk begins for it. No order is kept among requests. -/
def execUnitTranslation (die unit : Nat) (s : State) : Out :=
  let x := s.die die
  match x.xlat.find? fun r => decide (r.id = unit) with
  | none => s.noEvent
  | some r =>
    if (x.rootOf r.asid r.vf).isNone then .next ((s.dropXlat die unit).failReq r bsERROR)
    else
      match x.hit r.asid r.va with
      | some e =>
        match s.translated die r e with
        | some t => .next t
        | none => s.noEvent
      | none =>
        if x.walking r.asid r.va ∨ 64 ≤ x.walks.length then s.noEvent
        else
          .next (s.modDie die fun x => { x with walks := x.walks ++
            [{ id := r.id, asid := r.asid, vf := r.vf, va := r.va, kind := r.kind, began := s.now }] })

/-- PAGE_WALK_COMPLETE (R341, R358): the walk that request number `walk` began ends. One that passes
checks 1 to 6 makes a slice entry unless a TLBINV waits for it; one that fails, fails the request. -/
def execPageWalkComplete (die walk : Nat) (s : State) : Out :=
  let x := s.die die
  match x.walks.find? fun w => decide (w.id = walk) with
  | none => s.noEvent
  | some w =>
    let s1 := s.modDie die fun x => { x with walks := x.walks.filter fun v => decide (v.id ≠ walk) }
    if w.barred then .next s1
    else
      match x.translate w.asid w.vf w.va w.kind with
      | .ok t => .next (s1.modDie die fun x => x.addEntry (entryFor w.asid w.va t.leaf t.size))
      | .error st =>
        match x.xlat.find? fun r => decide (r.id = walk) with
        | none => .next s1
        | some r => .next ((s1.dropXlat die walk).failReq r st)

/-! ### Stops (R280 to R285, R348, R351) -/

/-- Whether no request to the same unit arrived at a stop before this one and waits there (R281). -/
def Stop.isFirst (t : Stop) (r : Req) : Bool :=
  !((t.inq.takeWhile fun q => decide (q.id ≠ r.id)).any fun q => decide (q.pa = r.pa))

/-- The request that a stop takes next among those of a kind: any that no earlier one to its unit keeps
back; its aim leaves open which (R9, R281). -/
def Stop.pick (t : Stop) (p : Req → Bool) : Option Req :=
  let l := t.inq.filter fun r => p r && t.isFirst r
  l[t.aim % l.length]?

/-- A request taken out of a stop's queue. -/
def State.takeReq (s : State) (d t id : Nat) : State :=
  s.modStop d t fun y => { y with inq := y.inq.filter fun r => decide (r.id ≠ id), aim := 0 }

/-- The requester of a read, with the address by which it knows the unit. -/
def Req.tag (r : Req) : Tag :=
  { id := r.id, core := r.core, seq := r.seq, uid := r.uid, part := r.vf, asid := r.asid
    lat := r.lat, va := r.va / r.unit * r.unit, page := r.page }

/-- Whether a read can be looked up: it can attach to an entry or find a free one (R280, R282). -/
def Stop.canLook (t : Stop) (r : Req) : Bool :=
  decide (r.kind = 0) && ((t.joinable r).isSome || decide (t.folds.length < 256))

/-- FOLD_READ_REQUEST (R280 to R283, R355): a read at a stop attaches to an open entry, or opens one under
the poison and quarantine state in force when it arrived. -/
def execFoldReadRequest (die stop : Nat) (s : State) : Out :=
  let t := s.stop die stop
  match t.pick t.canLook with
  | none => s.noEvent
  | some r =>
    match t.joinable r with
    | some f =>
      .next ((s.takeReq die stop r.id).modStop die stop fun y =>
        { y with
          fmrg := y.fmrg + 1
          folds := y.folds.map fun g => if g.num = f.num then { g with tags := g.tags ++ [r.tag] } else g })
    | none =>
      let (n, s1) := s.freshUid
      .next ((s1.takeReq die stop r.id).modStop die stop fun y =>
        { y with
          ffet := y.ffet + 1
          folds := y.folds ++ [{ num := n, key := (r.pa, r.vf), req := r, tags := [r.tag]
                                 openedAt := r.arrived, poisoned := r.recorded || r.quar }] })

/-- Where the reply to a tag goes. -/
def Tag.dest (t : Tag) : Nat × Nat × Nat := (dieOf t.core, clusterOf t.core % 16, pLocal)

/-- A reply packet for tags (R308, R311, R326): one flit of the class and partition of the request that
opened the entry. -/
def replyPacket (r : Req) (tags : List Tag) (d : Delivered) : Packet :=
  { dests := (tags.map Tag.dest).eraseDups, route := 0, kind := 1, cls := if r.lat then 0 else 1
    part := r.vf, payload := .reply tags d.bytes d.poison d.status, srcX := stopRouter (stopOfPa r.pa) % 4 }

/-- In diagnostic fixed-latency mode a stop's work on a request takes 600 cycles (R285). -/
def State.fixlatDue (s : State) (arrived : Nat) : Bool := !s.fixlat || decide (arrived + 600 ≤ s.now)

/-- Whether the data of an entry may arrive: every read that has arrived and can attach to it has, and the
entries opened before it for the unit have theirs (R280, R281). -/
def Stop.mayArrive (t : Stop) (f : Fold) : Bool :=
  !f.done && !(t.inq.any fun r => decide (r.kind = 0) && t.isFirst r && decide (t.joinable r = some f)) &&
    !((t.folds.takeWhile fun g => decide (g.num ≠ f.num)).any fun g => decide (g.key.1 = f.key.1) && !g.done)

/-- The global address, in a SCOPE 5 range that holds the whole unit, that translates to a physical unit of
a page that may be replicated, with what it translates to (R304, R339). -/
def Die.sealedUnit (x : Die) (pa : Nat) : Option (GSeal × Nat × Xlated) :=
  (x.gseals.filter fun e => decide (e.scope = 5) && !e.ended).findSome? fun e =>
    let at_ (va : Nat) : Option Xlated :=
      match x.translate e.asid e.vf va 0 with
      | .ok t =>
        if t.pa = pa ∧ t.leaf.sealok = true ∧ e.addr ≤ va / t.unit * t.unit ∧
          va / t.unit * t.unit + t.unit ≤ e.addr + e.len then some t else none
      | .error _ => none
    (leastFrom (fun k => (at_ (32 * k)).isSome) (e.addr / 32) ((e.addr + e.len - 1) / 32 - e.addr / 32 + 1)).bind
      fun k => (at_ (32 * k)).map fun t => (e, 32 * k / t.unit * t.unit, t)

/-- The unit of a die's reserve frames that takes a copy: at the unit's place in the first reserve frame in
which no copy stands (log entry 22). -/
def State.reserveUnit (s : State) (target pa : Nat) : Nat :=
  let used := (s.dies.flatMap fun kd => kd.2.replicas.filter fun r => decide (r.target = target)).map fun r =>
    r.frame / 65536
  let k := (leastFrom (fun k => !used.contains (2 ^ 36 + k)) 0 (used.length + 1)).getD 0
  2 ^ 52 + 65536 * k + pa % 65536

/-- The data of a unit that a die copies has arrived (R304, R356): the copy is stored in the other die's
reserve frame, under its own address and with its poison. A unit whose MAC does not match, or that no longer
lies in such a range, is not copied. -/
def State.makeReplica (s : State) (die : Nat) (f : Fold) : State :=
  let r := f.req
  let target := f.copy.getD 0
  let (d, s1) := s.deliver die r.core none r.vf r.va r.pa r.leaf f.poisoned
  match (s1.die die).sealedUnit r.pa with
  | none => s1
  | some (e, va, t) =>
    if d.status &&& bsERROR ≠ 0 ∨ e.vf ≠ r.vf ∨ t.leaf ≠ r.leaf then s1
    else
      let frame := s1.reserveUnit target r.pa
      let s2 := (s1.modDie target fun x => x.writeUnit t.leaf e.vf frame d.bytes).modStop target
        (stopOfPa frame) fun y => y.cleaned frame t.unit
      let s3 := if d.poison then s2.poisonUnit target (64 * target) frame t.leaf.gran else s2
      s3.modDie die fun x => { x with replicas := x.replicas ++
        [{ target, pa := r.pa, unit := t.unit, vf := e.vf, asid := e.asid, va, frame, leaf := t.leaf }] }

/-- DRAM_DATA_ARRIVAL (R280, R283, R348, R352): an entry's read performs, its data is decoded, and one reply
for its tags falls due; the entry frees as the reply leaves. Data without tags is discarded (R330), that of a copy makes the replica (R304). -/
def execDramDataArrival (die stop entry : Nat) (s : State) : Out :=
  let t := s.stop die stop
  match t.folds.find? fun f => decide (f.num = entry) with
  | none => s.noEvent
  | some f =>
    if s.fixlatDue f.openedAt ∧ t.mayArrive f then
      let r := f.req
      if f.copy ≠ none then
        .next ((s.makeReplica die f).modStop die stop fun y =>
          { y with folds := y.folds.filter fun g => decide (g.num ≠ entry) })
      else if f.tags = [] then
        .next (s.modStop die stop fun y => { y with folds := y.folds.filter fun g => decide (g.num ≠ entry) })
      else
        let (d, s1) := s.deliver die r.core (some r.launch) r.vf (r.va / r.unit * r.unit) r.pa r.leaf f.poisoned
        .next (s1.modStop die stop fun y =>
          { y with
            folds := y.folds.map fun g => if g.num = entry then { g with done := true } else g
            replies := y.replies ++ [(entry, replyPacket r f.tags d)]
            poisr := if d.poison then y.poisr + BitVec.ofNat 32 f.tags.length else y.poisr })
    else s.noEvent

/-- The write, or the atomic, that a stop performs next: no earlier request to its unit has still to
perform (R281). -/
def State.pickWrite (s : State) (die stop kind : Nat) : Option Req :=
  let t := s.stop die stop
  t.pick fun r => decide (r.kind = kind) && s.fixlatDue r.arrived &&
    !(t.folds.any fun f => decide (f.key.1 = r.pa) && !f.done)

/-- STOP_WRITE (R219, R281, R303, R348): a write at a stop performs, unless a rollback has stopped it. -/
def execStopWrite (die stop : Nat) (s : State) : Out :=
  match s.pickWrite die stop 1 with
  | none => s.noEvent
  | some r =>
    if s.calledOff r.id then .next ((s.takeReq die stop r.id).landed r.id)
    else
      let (st, s1) := (s.takeReq die stop r.id).performWrite die r.core (some r.launch) r.vf r.va r.pa
        (r.va % r.unit) r.leaf r.data r.poison
      .next (if st &&& bsERROR ≠ 0 then (s1.lateStatus r.core r.uid r.seq st).landed r.id
        else (s1.lateStatus r.core r.uid r.seq st).performed r.id (die, (r.pa + r.va % r.unit) / 64))

/-- The new value of an atomic of `b` bytes by operation number (R181, R194). -/
def atomNew (op b old x n : Nat) : Nat :=
  match op with
  | 0 => binop b (fun o x _ => o + x) old x n
  | 1 => binop b (fun o x _ => o - x) old x n
  | 2 => binop b (fun o x _ => if BitVec.slt x o then x else o) old x n
  | 3 => binop b (fun o x _ => if BitVec.slt o x then x else o) old x n
  | 4 => binop b (fun o x _ => if BitVec.ult x o then x else o) old x n
  | 5 => binop b (fun o x _ => if BitVec.ult o x then x else o) old x n
  | 6 => binop b (fun o x _ => o &&& x) old x n
  | 7 => binop b (fun o x _ => o ||| x) old x n
  | 8 => binop b (fun o x _ => o ^^^ x) old x n
  | 9 => binop b (fun _ x _ => x) old x n
  | 10 => binop b (fun o x n => if o = x then n else o) old x n
  | _ => faddCode old (x % 2 ^ 32)

/-- The old bytes that an atomic takes at its stop: the unit decoded as for a read (R194, R348). -/
def State.atomRead (s : State) (d : Nat) (r : Req) : Delivered × State :=
  let bad := (s.stop d (stopOfPa r.pa)).recorded r.pa r.unit || (s.die d).quarantined r.leaf r.pa
  s.deliver d r.core (some r.launch) r.vf (r.va / r.unit * r.unit) r.pa r.leaf bad true

/-- An atomic at its stop: a read of the unit and a write of its target as one act (R194, R281). The
reply's bytes are the unit as it was before. -/
def State.performAtomic (s : State) (d : Nat) (r : Req) : Delivered × State :=
  let sealed := (s.die d).gseals.any fun e =>
    decide (e.vf = r.vf ∧ r.va < e.addr + e.len ∧ e.addr < r.va + r.len)
  if sealed then ({ bytes := [], poison := false, status := bsERROR }, s)
  else
    let (o, s1) := s.atomRead d r
    if o.status &&& bsERROR ≠ 0 then (o, s1)
    else
      let off := r.va % r.unit
      let old := leNat ((o.bytes.drop off).take r.len)
      let new := natLe (atomNew r.op r.len old r.x.toNat r.n.toNat) r.len
      let (st, s2) := s1.performWrite d r.core (some r.launch) r.vf r.va r.pa off r.leaf new false
      ({ o with status := o.status ||| st }, s2)

/-- STOP_ATOMIC (R194, R219, R281): an atomic at a stop performs, and the old value leaves in a reply,
unless a rollback has stopped it. -/
def execStopAtomic (die stop : Nat) (s : State) : Out :=
  match s.pickWrite die stop 2 with
  | none => s.noEvent
  | some r =>
    if s.calledOff r.id then .next ((s.takeReq die stop r.id).landed r.id)
    else
      let (d, s1) := (s.takeReq die stop r.id).performAtomic die r
      let s2 := s1.modStop die stop fun y => { y with replies := y.replies ++ [(0, replyPacket r [r.tag] d)] }
      .next (if d.status &&& bsERROR ≠ 0 then s2.landed r.id else s2.performed r.id (die, (r.pa + r.va % r.unit) / 64))

/-! ### Seals of global ranges (R303 to R305) -/

/-- Whether a split still waits for the answer to its request. -/
def State.asking (s : State) (a : Ask) : Bool :=
  match s.group? a.core a.slot with
  | some g => g.uid == a.uid && g.splits.any fun p => decide (p.await = .asked a.id)
  | none => false

/-- The interval in which a block asked exposed, when it is still the current one (R217). -/
def State.exposeAsk (s : State) (a : Ask) : State :=
  match s.group? a.core a.slot with
  | none => s
  | some g => if g.uid = a.uid then s.exposeIn a.core g.block a.interval else s

/-- The confirmation of a request sent to the split that asked (R303, R308, R311). -/
def State.confirm (s : State) (d : Nat) (a : Ask) (w : Word) : State :=
  s.modDie d fun x => { x with outCtl := x.outCtl ++
    [{ dests := [(dieOf a.core, clusterOf a.core % 16, pLocal)], route := 0, kind := 1, cls := 0, part := a.vf
       payload := .confirm a w }] }

/-- Whether a write or atomic to a global range has arrived at a stop of a die and not performed. -/
def Die.arrivedWrites (x : Die) (vf addr len : Nat) : Bool :=
  x.stops.any fun kt => kt.2.inq.any fun r =>
    decide (r.kind ≠ 0 ∧ r.vf = vf ∧ r.va < addr + len ∧ addr < r.va + r.len)

/-- GLOBAL_SEAL_REQUEST (R302, R303): request number `request` of an owner die, once the writes that
have arrived have performed: the range enters the table and is confirmed, or a full table is
reported. A request that no split waits for any longer has no effect. -/
def execGlobalSealRequest (die request : Nat) (s : State) : Out :=
  let x := s.die die
  match x.sealReqs.find? fun a => decide (a.id = request) with
  | none => s.noEvent
  | some a =>
    if x.arrivedWrites a.vf a.addr a.len then s.noEvent
    else
      let s1 := s.modDie die fun x =>
        { x with sealReqs := x.sealReqs.filter fun b => decide (b.id ≠ request) }
      if !s.asking a then .next s1
      else if 64 ≤ x.gseals.length then .next (s1.confirm die a 1)
      else
        .next (((s1.modDie die fun x => { x with gseals := x.gseals ++
          [{ blockUid := a.blockUid, vf := a.vf, asid := a.asid, addr := a.addr, len := a.len
             scope := a.scope }] }).exposeAsk a).confirm die a 0)

/-- The oldest seal entry with the same block, start, length and scope removed (R305). -/
def dropSeal (a : Ask) : List GSeal → List GSeal
  | [] => []
  | e :: l =>
    if e.blockUid = a.blockUid ∧ e.addr = a.addr ∧ e.len = a.len ∧ e.scope = a.scope then l
    else e :: dropSeal a l

/-- GLOBAL_UNSEAL_REQUEST (R305): once no copy that would go serves a read, the entry is removed, copies of
units that no SCOPE 5 entry covers are discarded, and the removal is confirmed. Without such an entry
nothing changes. -/
def execGlobalUnsealRequest (die request : Nat) (s : State) : Out :=
  let x := s.die die
  match x.unsealReqs.find? fun a => decide (a.id = request) with
  | none => s.noEvent
  | some a =>
    let s1 := s.modDie die fun x =>
      { x with unsealReqs := x.unsealReqs.filter fun b => decide (b.id ≠ request) }
    if !s.asking a then .next s1
    else if s.serving die (dropSeal a x.gseals) then s.noEvent
    else
      .next (((s1.modDie die fun x => Die.pruneReplicas { x with gseals := dropSeal a x.gseals }).exposeAsk
        a).confirm die a 0)

/-- REPLICA_COPY (R304): the owner die begins to copy a unit of a range sealed with SCOPE 5 into another die's
reserve frames: a DRAM read under a Fold entry of its own. -/
def execReplicaCopy (die pa target : Nat) (s : State) : Out :=
  let y := s.stop die (stopOfPa pa)
  let made := (s.die die).replicas.any fun r => decide (r.pa = pa ∧ r.target = target)
  let busy := (y.inq.any fun r => decide (r.pa = pa ∧ r.kind ≠ 0)) ||
    y.folds.any fun f => decide (f.key.1 = pa ∧ f.copy = some target)
  if 3 < die ∨ target = die ∨ 3 < target ∨ made = true ∨ busy = true ∨ 256 ≤ y.folds.length then s.noEvent
  else
    match (s.die die).sealedUnit pa with
    | none => s.noEvent
    | some (e, va, t) =>
      let (n, s1) := s.freshUid
      let r : Req := { id := n, core := 64 * die, seq := 0, uid := 0, launch := 0, vf := e.vf, asid := e.asid, kind := 0
                       va, len := t.unit, pa, unit := t.unit, leaf := t.leaf, arrived := s.now }
      let q := r.sampled s die (stopOfPa pa)
      .next (s1.modStop die (stopOfPa pa) fun y => { y with folds := y.folds ++
        [{ num := n, key := (pa, e.vf), req := q, tags := [], openedAt := s.now, closed := true
           poisoned := q.recorded || q.quar, copy := some target }] })

/-! ### Host ports (R344, R361, R371) -/

/-- A request at a host port: that number, and no earlier request to its unit there (R361). -/
def State.hostReq? (s : State) (id : Nat) : Option HostReq :=
  match s.hostReqs.find? fun h => decide (h.req.id = id) with
  | none => none
  | some h =>
    let before := s.hostReqs.takeWhile fun g => decide (g.req.id ≠ id)
    if before.any fun g => decide (g.addr / 64 = h.addr / 64) then none else some h

/-- A request removed from its port. -/
def State.dropHostReq (s : State) (id : Nat) : State :=
  { s with hostReqs := s.hostReqs.filter fun g => decide (g.req.id ≠ id) }

/-- What a read of a host unit delivers; `poison` is the host's own indication, or the quarantine of its page
(R354, R371). -/
def State.hostRead (s : State) (addr : Nat) (poison : Bool) : Delivered × State :=
  if poison ∨ tget false s.hostPoison (addr / 64) then
    let (b, t) := s.freeBytes 64
    ({ bytes := b, poison := true, status := bsPOISON }, t)
  else ({ bytes := tblBytes s.hostMem (addr / 64 * 64) 64, poison := false, status := 0 }, s)

/-- HOST_READ_COMPLETION (R371). -/
def execHostReadCompletion (request : Nat) (poison : Bool) (s : State) : Out :=
  match s.hostReq? request with
  | none => s.noEvent
  | some h =>
    if h.req.kind = 0 then
      let (d, s1) := (s.dropHostReq request).hostRead h.addr (poison || h.req.leaf.quar)
      .next (s1.answer h.req.core h.req.seq request (h.req.va / 64 * 64) d.bytes d.poison d.status)
    else s.noEvent

/-- Bytes written to a host unit, with the poison that its unit then carries (R371, R378). -/
def State.hostWriteUnit (s : State) (addr : Nat) (l : List Byte) (poison : Bool) : State :=
  let t := s.writeHost addr l
  if poison then { t with hostPoison := tset false t.hostPoison (addr / 64) true } else t

/-- HOST_WRITE_COMPLETION (R219, R354, R361, R362): unless a rollback has stopped it, a write or an atomic
performs at the host or the safe tier; that to a quarantined page is dropped with ERROR. -/
def execHostWriteCompletion (request : Nat) (s : State) : Out :=
  match s.hostReq? request with
  | none => s.noEvent
  | some h =>
    let r := h.req
    if r.kind ≠ 0 ∧ s.calledOff request then .next ((s.dropHostReq request).landed request)
    else if r.kind = 1 then
      if r.leaf.quar then
        .next (((s.dropHostReq request).lateStatus r.core r.uid r.seq bsERROR).landed request)
      else
        .next (((s.dropHostReq request).hostWriteUnit h.addr r.data r.poison).performed request (4, h.addr / 64))
    else if r.kind = 2 then
      let (d, s1) := (s.dropHostReq request).hostRead h.addr r.leaf.quar
      let old := leNat ((d.bytes.drop (h.addr % 64)).take r.len)
      if r.leaf.quar then
        .next ((s1.answer r.core r.seq request (r.va / 64 * 64) d.bytes d.poison (d.status ||| bsERROR)).landed request)
      else
        let s2 := s1.hostWriteUnit h.addr (natLe (atomNew r.op r.len old r.x.toNat r.n.toNat) r.len) false
        .next ((s2.answer r.core r.seq request (r.va / 64 * 64) d.bytes d.poison d.status).performed request
          (4, h.addr / 64))
    else s.noEvent

end Sys2Proof.Machine
end

