-- ==== Sys2Proof/Machine/Engine.lean ====
section
/-!
DEFINITION. The core engines: the start of commands, their order, their reads and writes unit by unit,
and their completion (R189, R193, R194, R286, R290, R291, R332, R357, R358, R362, R363, R378).
-/
namespace Sys2Proof.Machine

/-! ### Order (R184, R362, R363) -/

/-- The fences before a command let it read and write: every command accepted before them has completed
and its writes are visible at their scope (R184). -/
def State.fencesOk (s : State) (c : Nat) (m : Cmd) : Bool :=
  m.fences.all fun f =>
    !((s.core c).cmds.any fun y => decide (y.uid = m.uid ∧ y.seq < f.2)) &&
      !(s.fly.any fun y => decide (y.core = c ∧ y.uid = m.uid ∧ y.seq < f.2) && !y.visible f.1)

/-- Whether memory of an owner lies within a scope, seen from a core (R363). -/
def inScope (scope c owner : Nat) : Bool :=
  match scope with
  | 4 => owner == dieOf c
  | 5 => decide (owner ≤ 3)
  | 6 => true
  | _ => false

/-- Whether bytes `a` to `a + n - 1` hold memory of an owner within a scope (R363). -/
def touches (scope c a n : Nat) : Bool :=
  (rangeFrom (ownerOf a) ((a + n - 1) / 2 ^ 53 + 1 - ownerOf a)).any fun o => inScope scope c (o % 8)

/-- Whether `n` positions of a command from `p` on have source bytes within a scope: of one stretch for a
copy, of each row or element they lie in for COPY2D and GATHER (R194, R363). -/
def Cmd.readsIn (m : Cmd) (s : State) (c scope p n : Nat) : Bool :=
  let from_ (q k : Nat) : Bool := match m.srcAt s c q with
    | some (.glob a) => touches scope c a k
    | _ => false
  if m.op = 2 ∨ m.op = 4 then
    (rangeFrom (p / m.elem) ((p + n - 1) / m.elem + 1 - p / m.elem)).any fun e =>
      let q := Nat.max p (e * m.elem)
      from_ q (Nat.min (p + n) ((e + 1) * m.elem) - q)
  else from_ p n

/-- Whether a command still has reads or an atomic to perform within a scope (R363). -/
def Cmd.reading (m : Cmd) (s : State) (c scope : Nat) : Bool :=
  let todo := if m.startedAt = none then (if m.total = 0 then [] else [(0, m.total)]) else m.rest
  if m.op = 6 then (match placeAt m.w 4 with
    | some (.glob a) => inScope scope c (ownerOf a)
    | _ => false)
  else (hasSrc m.op && !(m.op == 10) && !(m.op == 11)) && !m.stopped &&
    ((todo.any fun r => m.readsIn s c scope r.1 r.2) || m.pend.any fun x => touches scope c x.2.2.2 x.2.2.1)

/-- An acquire lets a command read: the reads and atomics of earlier commands within its scope have
performed (R363). -/
def State.acqOk (s : State) (c : Nat) (m : Cmd) : Bool :=
  !cmdACQ m.w ||
    !((s.core c).cmds.any fun y => decide (y.uid = m.uid ∧ y.seq < m.seq) && y.reading s c (cmdASCOPE m.w))

/-! ### Combiner entries (R399) -/

/-- The job and the tag by which a contribution finds its entry (R399). -/
def FabPkt.entry (p : FabPkt) : Word × Word := (p.key, p.words.getD 3 0)

/-- Whether the combiner has an entry for a job and tag, or a place for one: entries in use, and those that
contributions on their way into it will open, are at most 256 (R399). -/
def State.entryFor (s : State) (x : Word × Word) : Bool :=
  let used := ((s.combiner.map fun e => (e.key, e.tag)) ++ s.contribs.map FabPkt.entry).eraseDups
  used.contains x || decide (used.length < 256)

/-! ### Starts (R189, R200) -/

/-- The first command of a queue that has not started. -/
def Core.nextOf (x : Core) (q : Nat) : Option Cmd :=
  x.cmds.find? fun m => decide (m.queue = q ∧ m.startedAt = none)

/-- A command started: at most one of its queue in a cycle, in the order of acceptance. A collective that this
rank combines waits in its queue while it needs a new entry and all are in use (R399). -/
def State.startCmd (s : State) (c : Nat) (m : Cmd) : Option State :=
  let x := s.core c
  if m.gathers && decide (m.n 12 = (s.cmdPg m).rank) && !s.entryFor ((s.cmdPg m).key, wd m.w 13) then none else
  let first := match x.nextOf m.queue with
    | some y => y.seq == m.seq
    | none => false
  if first && !(x.cmds.any fun y => decide (y.queue = m.queue ∧ y.startedAt = some s.now)) then
    some ((s.modCmd c m.seq fun y =>
      { y with
        startedAt := some s.now, nextAt := m.acceptedAt + 4
        rest := if m.total = 0 then [] else [(0, m.total)] }).modGroup c m.slot fun g =>
        if g.uid = m.uid then { g with cmds := { g.cmds with p := g.cmds.p - 1 } } else g)
  else none

/-- A command of the copy engine (R55), to whose units the times of R332 apply. -/
def Cmd.isCopy (m : Cmd) : Bool := decide (1 ≤ m.op ∧ m.op ≤ 3)

/-- A unit of a command has issued (R332). -/
def State.issued (s : State) (c : Nat) (m : Cmd) : State :=
  if m.isCopy then
    (s.modCmd c m.seq fun m => { m with nextAt := s.now + 1 }).modCore c fun x => { x with engAt := s.now + 1 }
  else s

/-- Stretches without `n` positions from `p` on. -/
def cutOut (l : List (Nat × Nat)) (p n : Nat) : List (Nat × Nat) :=
  l.flatMap fun r =>
    if r.1 + r.2 ≤ p ∨ p + n ≤ r.1 then [r]
    else (if r.1 < p then [(r.1, p - r.1)] else []) ++
      (if p + n < r.1 + r.2 then [(p + n, r.1 + r.2 - (p + n))] else [])

/-- `n` more positions of a command requested, from `p` on. -/
def State.requested (s : State) (c seq p n : Nat) : State :=
  s.modCmd c seq fun m => { m with rest := cutOut m.rest p n, aim := {} }

/-! ### Convoy streams (R290, R291) -/

/-- The convoy membership of a command's group, when the command is a stream and the group is a member:
die, slot, convoy, member index and member. -/
def State.streamOf (s : State) (c : Nat) (m : Cmd) : Option (Nat × Nat × Convoy × Nat × Member) :=
  if m.stream then
    match s.group? c m.slot with
    | none => none
    | some g =>
      if g.uid ≠ m.uid ∨ g.cv.id = 0 then none
      else
        let d := cvDie g.cv.id
        let k := cvSlot g.cv.id
        match tfind? (s.die d).convoys k with
        | none => none
        | some v =>
          (v.members.find? fun km => decide (km.2.core = c ∧ km.2.slot = m.slot ∧ km.2.uid = m.uid)).map
            fun km => (d, k, v, km.1, km.2)
  else none

/-- CVOFF and the state of CVSTAT set in a group (R291, R300). -/
def Group.cvAt (g : Group) (front : Nat) (state : Nat) : Group :=
  { g with cv := { g.cv with off := BitVec.ofNat 32 front
                             stat := cvStat g.cv.stat false false none state } }

/-- Whether any other command of a group has a held unit. -/
def Core.otherHeld (x : Core) (m : Cmd) : Bool :=
  x.cmds.any fun y => decide (y.uid = m.uid ∧ y.seq ≠ m.seq ∧ y.held ≠ none)

/-- A member issues the unit of offset `u`: its frontier and timer move on (R291, R293). -/
def State.streamIssue (s : State) (c : Nat) (m : Cmd) (x : Nat × Nat × Convoy × Nat × Member) (u : Nat) :
    State :=
  let (d, k, v, _, b) := x
  let front := Nat.max b.front (u + v.g)
  let st := if b.state = 2 ∧ !(s.core c).otherHeld m then b.from_ else b.state
  (((s.modMember d k c m.slot m.uid fun b => { b with front, state := st }).modCmd c m.seq fun m =>
    { m with held := none }).modGroup c m.slot fun g =>
      let h := g.cvAt front st
      { h with cv := { h.cv with timer := 0 } }).sendBounds d k

/-- A member holds the unit of offset `u` (R291). -/
def State.streamHold (s : State) (c : Nat) (m : Cmd) (x : Nat × Nat × Convoy × Nat × Member) (u : Nat) :
    State :=
  let (d, k, _, _, b) := x
  let front := Nat.max b.front u
  let from_ := if b.state = 2 then b.from_ else b.state
  (((s.modMember d k c m.slot m.uid fun b => { b with front, state := 2, from_ }).modCmd c m.seq fun m =>
    { m with held := some u }).modGroup c m.slot fun g => g.cvAt front 2).sendBounds d k

/-- The unhitch limit of a group: CVTMO, a value below 1,024 acting as 1,024 (R293). -/
def Group.cvLimit (g : Group) : Nat := Nat.max 1024 g.cv.tmo.toNat

/-- Whether the unhitch timer of a hitched group has reached its limit: the group is to be unhitched before it
issues another stream unit and before the cycle ends (R293). -/
def Group.cvDue (g : Group) : Bool :=
  let st := bits g.cv.stat 6 4
  decide (g.cv.id ≠ 0 ∧ (st = 1 ∨ st = 2 ∨ st = 4) ∧ g.cvLimit ≤ g.cv.timer)

/-- What a stream command does about the unit that holds its next byte: issue it (with the new state),
hold it, or go on waiting. An unhitched member is never held, nor is a unit below the frontier. -/
inductive StreamStep where
  | go (s : State)
  | hold (s : State)
  | wait

def State.stream (s : State) (c : Nat) (m : Cmd) (p : Nat) : StreamStep :=
  match s.streamOf c m with
  | none => .go s
  | some x =>
    let (_, _, v, _, b) := x
    let u := v.g * ((m.n 9 + p) / v.g)
    let bound := ((s.group? c m.slot).getD {}).cv.bound
    let free := !b.isHitched || decide (u < b.front ∧ m.held = none) || (match bound with
      | none => true
      | some n => decide (u < n))
    if ((s.group? c m.slot).getD {}).cvDue then .wait
    else if free then .go (s.streamIssue c m x u)
    else if m.held = some u then .wait
    else .hold (s.streamHold c m x u)

/-! ### Reads (R193, R194) -/

/-- The coordinate of a rank in dimension `d` (R395). -/
def PGroup.coord (g : PGroup) (rank d : Nat) : Nat :=
  rank / ((g.ext.take d).foldl (· * ·) 1) % g.ext.getD d 1

/-- The link by which a packet for a rank leaves: dimension 0 first, the shorter way round, the plus way
when both are equal (R397). -/
def PGroup.linkTo (g : PGroup) (rank : Nat) : Option Nat :=
  (leastFrom (fun d => g.coord rank d != g.coord g.rank d) 0 g.ndim).map fun d =>
    let e := g.ext.getD d 1
    let plus := (g.coord rank d + e - g.coord g.rank d) % e
    (g.links.getD (2 * d + if plus ≤ e - plus then 1 else 0) (18, 0)).1

/-- A fabric packet of a command, in its class, enters its router on the way to the hub of the link by which
it leaves the device; none while that input takes no packet (R311, R390, R397). -/
def State.sendFab (s : State) (c : Nat) (m : Cmd) (p : FabPkt) : Option State :=
  let n := clusterOf c % 16
  let x := hubPacket m.vf (linkDie (((s.cmdPg m).linkTo p.dst).getD 0)) (n % 4)
    { p with cls := if cmdLAT m.w then 0 else 1 }
  if (s.die (dieOf c)).canInject n n pLocal s.now [] x && !s.localTaken (dieOf c) n then
    some (s.modDie (dieOf c) fun d => d.inject (dieOf c) n n pLocal s.now [] x)
  else none

/-- A unit request of a command. -/
def reqOf (c id : Nat) (m : Cmd) (kind va len : Nat) : Req :=
  { id, core := c, seq := m.seq, uid := m.uid, launch := m.launch, vf := m.vf, asid := m.asid, kind, va
    len, lat := cmdLAT m.w }

/-- Bytes left of the element that holds position `p`, of those not yet requested. -/
def Cmd.left (m : Cmd) (p : Nat) : Nat :=
  match m.rest.find? fun r => decide (r.1 ≤ p ∧ p < r.1 + r.2) with
  | some r => Nat.min (m.elem - p % m.elem) (r.1 + r.2 - p)
  | none => 0

/-- Bytes from a position on that lie together at the destination. -/
def Cmd.run (m : Cmd) (pos : Nat) : Nat :=
  if m.op = 2 ∨ m.op = 5 then m.elem - pos % m.elem
  else if m.op = 6 then 2 ^ bits (wd m.w 10) 9 8 - pos
  else m.total - pos

/-- The size of the unit at a global destination: 256 bytes at a peer. -/
def State.dstUnit (s : State) (m : Cmd) (a : Nat) : Nat :=
  if s.isRemote m then 256 else s.unitAt m.asid m.vf a

/-- Bytes from position `p` on that lie in one unit of what the command accesses there: the unit of a
global source, else that of a global destination, else a 32-byte line of scratchpad (R193, R351). -/
def Cmd.unitOf (m : Cmd) (s : State) (c p : Nat) : Nat × Nat :=
  let line : Nat × Nat := match m.srcAt s c p with
    | some (.loc o) => (32, o % 32)
    | some (.hand _ o) => (32, o % 32)
    | _ => (32, p % 32)
  let dst : Nat × Nat := match m.dstAt s c p with
    | some (.glob b) => if m.gathers then line else (s.dstUnit m b, b % s.dstUnit m b)
    | _ => line
  match if m.op = 3 then none else m.srcAt s c p with
  | some (.glob a) => if 4 < ownerOf a then (256, a % 256) else (s.unitAt m.asid m.vf a, a % s.unitAt m.asid m.vf a)
  | _ => dst

/-- Bytes of the piece at position `p`: to the end of its unit, of its element and of what is not yet
requested. -/
def Cmd.pieceLen (m : Cmd) (s : State) (c p : Nat) : Nat :=
  let (u, o) := m.unitOf s c p
  Nat.min (m.left p) (u - o)

/-- Position number `n` of those not yet requested, with the start of its stretch. -/
def nthPos : List (Nat × Nat) → Nat → Option (Nat × Nat)
  | [], _ => none
  | r :: l, n => if n < r.2 then some (r.1 + n, r.1) else nthPos l (n - r.2)

/-- The position at which a command's next piece starts. A convoy stream goes in increasing order (R290);
any other command may go on with any unit (R189): that of the position its aim names, of which the first
byte not yet requested is taken. -/
def Cmd.nextPos (m : Cmd) (s : State) (c : Nat) : Option Nat :=
  let size := m.rest.foldl (fun n r => n + r.2) 0
  match nthPos m.rest (if m.stream || size == 0 then 0 else m.aim.pos % size) with
  | none => none
  | some (p, start) =>
    let low := if m.op = 2 ∨ m.op = 4 ∨ m.op = 5 then Nat.max start (p - p % m.elem) else start
    some (p - Nat.min (p - low) (m.unitOf s c p).2)

/-- Bytes of a command at position `p` not moved: ERROR, and its positions pass (R193, R194). -/
def State.skip (s : State) (c : Nat) (m : Cmd) (p n : Nat) : State :=
  let t := (s.cmdStatus c m.seq bsERROR).requested c m.seq p n
  if m.gathers then t.modCmd c m.seq fun m => { m with buf := tblWrite m.buf p (List.replicate n 0) }
  else t

/-- The piece of a command at position `p` read from scratchpad. An indexed element that does not lie
wholly in its space is not moved (R194). -/
def State.readSpad (s : State) (c : Nat) (m : Cmd) (p : Nat) (x : Place) : State :=
  let k := if m.aim.len = 0 then m.pieceLen s c p else Nat.min m.aim.len (m.pieceLen s c p)
  let whole : Bool := decide (m.op ≠ 4) || (match m.srcAt s c (p - p % m.elem) with
    | some e => (s.spot c m e m.elem).isSome
    | none => false)
  match if whole then s.spot c m x k else none with
  | none => s.skip c m p k
  | some (home, a) =>
    (s.gotBytes c m p (tblBytes (s.core home).spad a k) (s.spadPoisoned home a k) false).requested c m.seq p k

/-- The piece of a command at position `p` requested from global memory; none while it must wait. -/
def State.readGlob (s : State) (c : Nat) (m : Cmd) (p a : Nat) : Option State :=
  let k := m.pieceLen s c p
  if 4 < ownerOf a then some (s.skip c m p k)
  else
    match s.stream c m p with
    | .wait => none
    | .hold t => some t
    | .go s1 =>
      let (n, s2) := s1.freshUid
      match s2.sendReq (reqOf c n m 0 a k) with
      | none => none
      | some t =>
        some (((t.modCmd c m.seq fun m => { m with pend := m.pend ++ [(n, p, k, a)] }).requested c m.seq p k).issued
          c m)

/-- The next piece of a command's source read. -/
def State.readNext (s : State) (c : Nat) (m : Cmd) : Option State :=
  if !s.acqOk c m then none
  else
    match m.nextPos s c with
    | none => none
    | some p =>
      match m.srcAt s c p with
      | none => some (s.skip c m p (m.left p))
      | some (.glob a) => s.readGlob c m p a
      | some x => some (s.readSpad c m p x)

/-! ### Writes (R193, R194, R286, R371, R378) -/

/-- The bytes from a position on that one write to a global address carries: to the end of its unit. -/
def State.writeSpan (s : State) (m : Cmd) (pos a : Nat) : Nat :=
  let u := s.dstUnit m a
  Nat.min (m.run pos) (u - a % u)

/-- Stretches of positions whose bytes are still to be written: not requested, on their way, or read. -/
def Cmd.unwritten (m : Cmd) : List (Nat × Nat) :=
  m.rest ++ (m.pend.map fun x => (x.2.1, x.2.2.1)) ++ m.outbox.map fun x => (x.1, x.2.1.length)

/-- `n` positions from `q` on as stretches that lie together at the destination: those of each row or
element for COPY2D and SCATTER. -/
def Cmd.parts (m : Cmd) (q n : Nat) : List (Nat × Nat) :=
  if m.op = 2 ∨ m.op = 5 then
    (rangeFrom (q / m.elem) ((q + n + m.elem - 1) / m.elem - q / m.elem)).map fun e =>
      let lo := Nat.max q (e * m.elem)
      (lo, Nat.min (q + n) ((e + 1) * m.elem) - lo)
  else [(q, n)]

/-- What is still to be written, as stretches that lie together: position, offset at the destination and
length. -/
def Cmd.waiting (m : Cmd) (s : State) (c : Nat) : List (Nat × Nat × Nat) :=
  (m.unwritten.flatMap fun r => m.parts r.1 r.2).filterMap fun r =>
    if r.2 = 0 then none else (m.dstAt s c r.1).map fun p => (r.1, p.off, r.2)

/-- The addresses within which the writes of a command to address `a` go in increasing order: the unit
(R286), and for host memory and a peer all of them (R371, R403). -/
def State.orderedIn (s : State) (m : Cmd) (a : Nat) : Nat × Nat :=
  if s.isRemote m || ownerOf a == 4 then (0, 2 ^ 56)
  else
    let u := s.dstUnit m a
    (a / u * u, a / u * u + u)

/-- Whether something still to be written goes before the bytes of position `pos` at a global address: it
lies lower in what is ordered with them, or at the same address with a lower position, so that the byte of the
highest element stands (R194, R286, R371). -/
def State.blocked (s : State) (c : Nat) (m : Cmd) (pos a : Nat) : Bool :=
  let (lo, hi) := s.orderedIn m a
  (m.waiting s c).any fun (q, b, n) =>
    let x := Nat.max lo b
    decide (x < Nat.min hi (b + n) ∧ (x < a ∨ (x = a ∧ q + (x - b) < pos)))

/-- Where a write of position `pos` at `a` of at most `n` bytes ends, so that no other row or element still to
be written starts inside it. -/
def State.cutAt (s : State) (c : Nat) (m : Cmd) (pos a n : Nat) : Nat :=
  (m.waiting s c).foldl (fun k (q, b, _) => if a < b ∧ b < a + k ∧ q ≠ pos + (b - a) then b - a else k) n

/-- Whether something of a lower element that is still to be written meets `n` bytes of scratchpad at offset
`o` that a SCATTER writes (R194). -/
def State.blockedSpad (s : State) (c : Nat) (m : Cmd) (pos o n : Nat) : Bool :=
  m.op == 5 && (m.waiting s c).any fun (q, b, k) => decide (q < pos ∧ o < b + k ∧ b < o + n)

/-- Whether the whole span of a write has been read, or given up (R193). -/
def Cmd.spanRead (m : Cmd) (pos n : Nat) : Bool :=
  !(m.rest.any fun r => decide (pos < r.1 + r.2 ∧ r.1 < pos + n)) &&
    !(m.pend.any fun x => decide (pos ≤ x.2.1 ∧ x.2.1 < pos + n))

/-- A write of the command that has not performed keeps one back: to the same unit, or to host memory, which
it writes one unit after another (R286, R371). -/
def State.flyBlocks (s : State) (c : Nat) (m : Cmd) (a : Nat) : Bool :=
  let (lo, hi) := s.orderedIn m a
  s.fly.any fun f => decide (f.core = c ∧ f.seq = m.seq ∧ lo ≤ f.va ∧ f.va < hi)

/-- The pieces of an outbox that continue a run from a position, within `n` bytes. -/
def runFrom (l : List (Nat × List Byte × Bool × Bool)) (n : Nat) :
    Nat → Nat → List (Nat × List Byte × Bool × Bool)
  | 0, _ => []
  | fuel + 1, pos =>
    if n = 0 then []
    else
      match l.find? fun x => decide (x.1 = pos) with
      | none => []
      | some x =>
        if x.2.1.length = 0 ∨ n ≤ x.2.1.length then [x]
        else x :: runFrom l (n - x.2.1.length) fuel (pos + x.2.1.length)

/-- One write: position, bytes, poison and non-resident marks, and the outbox without it. -/
structure Piece where
  pos : Nat
  bytes : List Byte
  poison : Bool
  nonres : Bool
  rest : List (Nat × List Byte × Bool × Bool)

/-- What has been read of `n` positions from `pos` on as one write. -/
def Cmd.piece (m : Cmd) (pos n : Nat) : Piece :=
  let box := cutBox (cutBox m.outbox pos) (pos + n)
  let l := runFrom box n box.length pos
  { pos, bytes := l.flatMap fun x => x.2.1, poison := l.any fun x => x.2.2.1, nonres := l.any fun x => x.2.2.2
    rest := box.filter fun x => !(l.any fun y => decide (y.1 = x.1)) }

/-- Status bits that a piece sets. -/
def Piece.status (w : Piece) : Word := (if w.poison then bsPOISON else 0) ||| (if w.nonres then bsNONRES else 0)

/-- A write leaves a command's outbox with the status that it sets (R193). -/
def State.unbox (s : State) (c : Nat) (m : Cmd) (w : Piece) (st : Word) : State :=
  s.modCmd c m.seq fun m => { m with outbox := w.rest, aim := {}, status := m.status ||| w.status ||| st }

/-- A command stops at the first poisoned unit that a receiver does not take: POISON and ERROR, the VF is
contained, and an event of kind 4 names the unit (R378). -/
def State.stopEgress (s : State) (c : Nat) (m : Cmd) (a : Nat) : State :=
  ((s.modCmd c m.seq fun m =>
    { m with stopped := true, outbox := [], pend := [], status := m.status ||| bsPOISON ||| bsERROR }).modFn
    m.vf fun f => { f with contained := true }).raiseFor (some m.launch) m.vf 4 c a

/-- A write request of a command, in flight until it performs (R362). -/
def State.sendWrite (s : State) (c : Nat) (m : Cmd) (a : Nat) (w : Piece) : Option State :=
  let (n, s1) := s.freshUid
  let r := { reqOf c n m 1 a w.bytes.length with data := w.bytes, poison := w.poison }
  match s1.sendReq r with
  | none => none
  | some t =>
    let f : Fly := { id := n, core := c, uid := m.uid, seq := m.seq, launch := m.launch, vf := m.vf
                     owner := ownerOf a, die := dieOf c, stage := 0, va := a
                     block := m.block, buid := m.buid, interval := m.interval
                     part := (m.wrote.find? fun b => b.1 == a / 64).map (·.2) }
    some (({ t with fly := t.fly ++ [f] }).unbox c m w 0 |>.issued c m)

/-- An RCOPY unit sent toward its rank, once the one before it is acknowledged: units are written there one
after another, in increasing address order (R371, R403). -/
def State.sendPeer (s : State) (c : Nat) (m : Cmd) (a : Nat) (w : Piece) : Option State :=
  let g := s.cmdPg m
  if m.sub ≠ 0 then none else
  let p : FabPkt := { kind := 3, key := g.key, src := g.rank, dst := m.n 12, core := c, seq := m.seq, va := a
                      data := w.bytes, poison := w.poison }
  (s.sendFab c m p).map fun t =>
    ((t.exposeCmd c m).unbox c m w 0).modCmd c m.seq fun m => { m with sub := m.sub + 1 }

/-- A piece bound for host memory or a peer is checked for containment and poison first (R378). -/
def State.egress (s : State) (c : Nat) (m : Cmd) (a : Nat) (w : Piece) (enable : Nat)
    (send : Option State) : Option State :=
  let f := s.fn m.vf
  if f.contained then some (s.unbox c m w bsERROR)
  else if w.poison ∧ f.poisen / 2 ^ enable % 2 = 0 then some (s.stopEgress c m (a / s.dstUnit m a * s.dstUnit m a))
  else send

/-- A piece for a scratchpad destination. That of an indexed element is not moved when the element is not
wholly in its space or meets a seal entry (R194). -/
def State.writeLocal (s : State) (c : Nat) (m : Cmd) (w : Piece) : State :=
  let t := s.unbox c m { w with poison := false, nonres := false } 0
  let moved : Bool := decide (m.op ≠ 5) || (match (m.dstAt s c (w.pos / m.elem * m.elem)).bind fun e => s.spot c m e m.elem with
    | some (home, a) => !s.spadSealed home a m.elem
    | none => false)
  match m.dstAt s c w.pos with
  | some p => if moved then t.cmdWrite c m p w.bytes w.poison w.nonres else t.cmdStatus c m.seq bsERROR
  | none => t.cmdStatus c m.seq bsERROR

/-- The position from which a write of a piece starts, which its aim names: for a global destination the
first byte of the piece that shares its unit and its row or element. -/
def State.writeFrom (s : State) (c : Nat) (m : Cmd) (x : Nat × List Byte × Bool × Bool) : Nat :=
  let p := x.1 + (if m.aim.from_ < x.2.1.length then m.aim.from_ else 0)
  match m.dstAt s c p with
  | some (.glob a) =>
    let low := if m.op = 2 ∨ m.op = 5 then Nat.max x.1 (p / m.elem * m.elem) else x.1
    p - Nat.min (p - low) (a % s.dstUnit m a)
  | _ => p

/-- A piece read sent on, when nothing keeps it back: as one write of a unit, or as bytes of scratchpad, of
which any part may land first (R188). -/
def State.sendPiece (s : State) (c : Nat) (m : Cmd) (x : Nat × List Byte × Bool × Bool) : Option State :=
  let pos := s.writeFrom c m x
  match m.dstAt s c pos with
  | none => none
  | some (.glob a) =>
    let n := s.cutAt c m pos a (s.writeSpan m pos a)
    let w := m.piece pos n
    if s.blocked c m pos a || !m.spanRead pos n then none
    else if s.isRemote m then s.egress c m a w 1 (s.sendPeer c m a w)
    else if 4 < ownerOf a then some (s.unbox c m w bsERROR)
    else if s.flyBlocks c m a then none
    else if ownerOf a = 4 then s.egress c m a w 0 (s.sendWrite c m a w)
    else s.sendWrite c m a w
  | some p =>
    let left := Nat.min (x.1 + x.2.1.length - pos) (m.run pos)
    let n := if m.aim.len = 0 then left else Nat.min m.aim.len left
    if s.blockedSpad c m pos p.off n then none else some (s.writeLocal c m (m.piece pos n))

/-- The first piece that can be sent, from the one that its aim names on. -/
def State.sendNext (s : State) (c : Nat) (m : Cmd) : Option State :=
  let k := m.aim.box % m.outbox.length
  (m.outbox.drop k ++ m.outbox.take k).findSome? (s.sendPiece c m)

/-! ### One act of a command -/

/-- One act of a command that reads and writes: something read is written, else the next piece is read; its
aim may have it read first. -/
def Cmd.turn (m : Cmd) (write read : Option State) : Option State :=
  if m.aim.read then (match read with
    | some t => some t
    | none => write)
  else
    match write with
    | some t => some t
    | none => read

/-- One act of a command that copies. -/
def State.copyAct (c : Nat) (s : State) (m : Cmd) : Option State := m.turn (s.sendNext c m) (s.readNext c m)

/-- The bytes of a FILL from position `pos` (R194). -/
def fillBytes (pattern : Word) (pos n : Nat) : List Byte :=
  (rangeFrom pos n).map fun j => (natLe pattern.toNat 4).getD (j % 4) 0

/-- One act of a FILL. -/
def State.fillAct (c : Nat) (s : State) (m : Cmd) : Option State :=
  m.turn (s.sendNext c m) <| (m.nextPos s c).map fun p =>
    let k := m.pieceLen s c p
    (s.gotBytes c m p (fillBytes (wd m.w 10) p k) false false).requested c m.seq p k

/-- What one act of a started command leaves, when nothing forbids it to read and write. -/
def State.tryAct (s : State) (c : Nat) (m : Cmd) (act : State → Cmd → Option State) : Option State :=
  if m.startedAt = none ∨ m.stopped ∨ m.empty ∨ !s.fencesOk c m then none else act s m

/-- One act of a command of the copy engine. -/
def State.moveAct (c : Nat) (s : State) (m : Cmd) : Option State :=
  if m.op = 3 then s.fillAct c m else s.copyAct c m

/-- Whether an act issues a unit: it takes the engine's issue cycle, as reading scratchpad or a decision to
hold a unit does not (R332). -/
def State.unitIssues (s : State) (c : Nat) (m : Cmd) (act : State → Cmd → Option State) : Bool :=
  match (s.modCore c fun x => { x with engAt := 0 }).tryAct c m act with
  | some t => (t.core c).engAt != 0
  | none => false

/-- A command that reads or writes global memory (R332). -/
def Cmd.onGlobal (m : Cmd) : Bool :=
  ((placeAt m.w 2).any Place.isGlob && m.op != 3) || (placeAt m.w 4).any Place.isGlob

/-- Whether a bound that is due has still to reach its member (R333). -/
def State.boundsDue (s : State) : Bool :=
  s.dies.any fun kd => kd.2.convoys.any fun kv => kv.2.members.any fun km => match km.2.due with
    | (t, _) :: _ => decide (t ≤ s.now)
    | [] => false

/-- Whether a command of the copy engine accepted before `m` is still to do something in this cycle (R332). -/
def State.earlierDue (s : State) (c : Nat) (m : Cmd) : Bool :=
  (s.core c).cmds.any fun y => y.isCopy && y.onGlobal && decide (y.seq < m.seq ∧ y.nextAt ≤ s.now) &&
    (s.tryAct c y (State.moveAct c)).isSome

/-- In diagnostic fixed-latency mode a command of the copy engine decides its next unit when R332 says, and
issues one in a cycle in which none has issued, once the bounds due have come and no command accepted before
it may still issue. -/
def State.inTime (s : State) (c : Nat) (m : Cmd) (act : State → Cmd → Option State) : Bool :=
  !s.fixlat || !m.isCopy || decide (m.nextAt ≤ s.now) && !s.boundsDue && (!s.unitIssues c m act ||
    decide ((s.core c).engAt ≤ s.now) && !s.earlierDue c m)

/-- One act of a started command, in time. -/
def State.actOf (s : State) (c : Nat) (m : Cmd) (act : State → Cmd → Option State) : Option State :=
  match s.tryAct c m act with
  | some t => if s.inTime c m act then some t else none
  | none => none

/-- In diagnostic fixed-latency mode a core's copy engine has something to do in this cycle: to start a
command, or to act on one that reads or writes global memory (R332). -/
def State.copyDue (s : State) (c : Nat) : Bool :=
  s.fixlat && (s.core c).cmds.any fun m => m.isCopy &&
    (if m.startedAt = none then (s.startCmd c m).isSome
     else m.onGlobal && (s.actOf c m (State.moveAct c)).isSome)

/-- A started command of an opcode that may read and write, or its start. -/
def engineAct (op : Nat) (c seq : Nat) (s : State) (act : State → Cmd → Option State) : Out :=
  match (s.core c).cmds.find? fun m => decide (m.seq = seq) with
  | none => s.noEvent
  | some m =>
    if m.op ≠ op then s.noEvent
    else if m.startedAt = none then
      match s.startCmd c m with
      | some t => .next t
      | none => s.noEvent
    else
      match s.actOf c m act with
      | some t => .next t
      | none => s.noEvent

/-- COPY (R194). -/
def execCopy (core seq : Nat) (s : State) : Out := engineAct 1 core seq s (State.copyAct core)

/-- COPY2D (R194). -/
def execCopy2d (core seq : Nat) (s : State) : Out := engineAct 2 core seq s (State.copyAct core)

/-- GATHER (R194). -/
def execGather (core seq : Nat) (s : State) : Out := engineAct 4 core seq s (State.copyAct core)

/-- SCATTER (R194). -/
def execScatter (core seq : Nat) (s : State) : Out := engineAct 5 core seq s (State.copyAct core)

/-- FILL (R194). -/
def execFill (core seq : Nat) (s : State) : Out := engineAct 3 core seq s (State.fillAct core)

/-- One act of an ATOM: its request, or the old value written (R194, R365). -/
def State.atomAct (c : Nat) (s : State) (m : Cmd) : Option State :=
  if m.rest = [] then s.sendNext c m
  else if !s.acqOk c m then none
  else
    match placeAt m.w 4 with
    | some (.glob a) =>
      if ownerOf a = 4 ∧ (s.fn m.vf).contained then some (s.skip c m 0 1)
      else
        let (n, s1) := s.freshUid
        let b := 2 ^ bits (wd m.w 10) 9 8
        let r := { reqOf c n m 2 a b with
          op := bits (wd m.w 10) 3 0, x := wd m.w 13 ++ wd m.w 12, n := wd m.w 15 ++ wd m.w 14 }
        match s1.sendReq r with
        | none => none
        | some t =>
          let f : Fly := { id := n, core := c, uid := m.uid, seq := m.seq, launch := m.launch, vf := m.vf
                           owner := ownerOf a, die := dieOf c, stage := 0, va := a
                           block := m.block, buid := m.buid, interval := m.interval }
          some ((({ t with fly := t.fly ++ [f] }).modCmd c m.seq fun m =>
            { m with pend := m.pend ++ [(n, 0, b, a)], rest := [] }).issued c m)
    | _ => some (s.skip c m 0 1)

/-- ATOM (R194). -/
def execAtom (core seq : Nat) (s : State) : Out := engineAct 6 core seq s (State.atomAct core)

/-- A vector as the packets that carry it, of one flit each (R308). -/
def FabPkt.chunks (p : FabPkt) : List FabPkt :=
  (rangeFrom 0 (Nat.max 1 ((p.data.length + 255) / 256))).map fun k =>
    { p with off := 256 * k, size := p.data.length, data := (p.data.drop (256 * k)).take 256
             bad := p.bad.filter fun r => decide (r.1 < 256 * k + 256 ∧ 256 * k < r.1 + r.2) }

/-- The contribution of a collective (R399). -/
def Cmd.contribution (m : Cmd) (g : PGroup) (c : Nat) : FabPkt :=
  let data := if m.op ≠ 9 ∨ m.n 12 = g.rank then tblBytes m.buf 0 m.total else []
  { kind := 0, key := g.key, src := g.rank, dst := m.n 12, core := c, seq := m.seq, op := m.op
    words := [wd m.w 1, wd m.w 10, wd m.w 11, wd m.w 13], data, size := data.length, bad := m.bufBad
    status := m.status &&& (bsERROR ||| bsNONRES), cls := if cmdLAT m.w then 0 else 1, hub := dieOf c }

/-- One act of a collective: the copy of R400 for one participant; else the source gathered, the
contribution made, at this rank's own combiner or packet by packet, and the result written (R399). -/
def State.collAct (c : Nat) (s : State) (m : Cmd) : Option State :=
  if !m.gathers then s.copyAct c m
  else if m.phase = 2 then s.sendNext c m
  else if m.phase = 1 then none
  else
    let g := s.cmdPg m
    if (m.op ≠ 9 ∨ m.n 12 = g.rank) ∧ m.rest ≠ [] then s.readNext c m
    else if m.pend ≠ [] then none
    else
      let p := m.contribution g c
      let done (n : Nat) (t : State) : State := (t.exposeCmd c m).modCmd c m.seq fun m =>
        { m with rest := [], sent := n, phase := if n < p.chunks.length then 0 else 1 }
      if m.n 12 = g.rank then
        if s.entryFor p.entry then some (done p.chunks.length { s with contribs := s.contribs ++ [p] }) else none
      else
        match p.chunks[m.sent]? with
        | some q => (s.sendFab c m q).map (done (m.sent + 1))
        | none => none

/-- REDUCE (R399). -/
def execReduce (core seq : Nat) (s : State) : Out := engineAct 7 core seq s (State.collAct core)

/-- ALLRED (R399). -/
def execAllred (core seq : Nat) (s : State) : Out := engineAct 8 core seq s (State.collAct core)

/-- BCAST (R399). -/
def execBcast (core seq : Nat) (s : State) : Out := engineAct 9 core seq s (State.collAct core)

/-- RCOPY (R403). -/
def execRcopy (core seq : Nat) (s : State) : Out := engineAct 12 core seq s (State.copyAct core)

/-- One act of a PAGEREQ: the next page of the range (64 KiB at a time). A page that is mapped and
resident is passed. One that no entry maps gives ERROR. For one that is not resident, whether the device
gives up, with ERROR, or goes on waiting for system software is left open (R194, R342; log entry 23). -/
def State.pageAct (c : Nat) (s : State) (m : Cmd) : Option State :=
  match m.rest with
  | [] => none
  | (p, n) :: _ =>
    match m.srcAt s c p with
    | some (.glob a) =>
      let k := Nat.min n (65536 - a % 65536)
      match if 4 < ownerOf a then none else (s.die (reqDie a)).walk m.asid m.vf a with
      | none => some (s.skip c m p k)
      | some (leaf, _) =>
        if leaf.resident then some (s.requested c m.seq p k)
        else
          let (i, s1) := s.freshFree
          if Config.freeBool i then some (s1.skip c m p k) else some s1
    | _ => some (s.skip c m p n)

/-- PAGEREQ (R194). -/
def execPagereq (core seq : Nat) (s : State) : Out := engineAct 10 core seq s (State.pageAct core)

/-- The translated requests of an ASID that have not performed and that an entry of some range translated:
those to memory of die `d`, wherever they stand, and those of reads in open Fold entries (R358). -/
def State.inFlight (s : State) (d asid : Nat) (p : Nat × Nat → Bool) : List Nat :=
  let ok (a va : Nat) (page : Nat × Nat) : Bool := decide (a = asid ∧ reqDie va = d) && p page
  let reqs (l : List Req) : List Nat :=
    (l.filter fun r => decide (r.unit ≠ 0) && ok r.asid r.va r.page).map (·.id)
  let inPkt (x : Packet) : List Req := match x.payload with
    | .req r => [r]
    | _ => []
  (s.dies.flatMap fun kd =>
    reqs ((kd.2.bufs.flatMap fun kb => kb.2.flatMap fun sl => inPkt sl.pkt) ++
      (kd.2.lanes.flatMap fun kb => kb.2.flatMap fun sl => inPkt sl.pkt) ++
      (kd.2.leaving.flatMap fun x => inPkt x.2) ++ kd.2.stops.flatMap fun kt => kt.2.inq) ++
    kd.2.stops.flatMap fun kt => (kt.2.folds.filter fun f => !f.done).flatMap fun f =>
      (f.tags.filter fun g => ok g.asid g.va g.page).map (·.id)) ++
  reqs (s.hostReqs.map (·.req))

/-- The removal of slice entries by a TLBINV (R358): the entries go, walks of the ASID will make none, and the
requests that such an entry has translated, gone already or not, are noted. Copies of units of the range go with
them, once none serves a read. -/
def State.tlbAct (c : Nat) (s : State) (m : Cmd) : Option State :=
  if m.rest = [] ∨ !s.acqOk c m then none
  else
    match placeAt m.w 2 with
    | some (.glob a) =>
      let d := reqDie a
      let asid := bits (wd m.w 10) 7 0
      let inRange (va n : Nat) : Bool := (wd m.w 10).getLsbD 8 || decide (va < a + m.n 1 ∧ a < va + n)
      let hit (e : TlbEntry) : Bool := decide (e.asid = asid) && inRange e.va e.size
      let old (r : Replica) : Bool := decide (r.asid = asid) && inRange r.va r.unit
      let ids := s.inFlight d asid fun g => inRange g.1 g.2
      if (s.die d).replicas.any fun r => old r && r.reads.any s.awaited then none
      else
        some (((s.exposeCmd c m).modDie d fun x =>
          { x with
            tlb := x.tlb.filter fun e => !hit e
            walks := x.walks.map fun w => if w.asid = asid then { w with barred := true } else w
            replicas := x.replicas.filter fun r => !old r }).modCmd c m.seq fun m =>
              { m with rest := [], pend := ids.map fun i => (i, 0, 0, 0) })
    | _ => some (s.skip c m 0 m.total)

/-- TLBINV (R357, R358). -/
def execTlbinv (core seq : Nat) (s : State) : Out := engineAct 11 core seq s (State.tlbAct core)

/-! ### Completion (R193, R198, R358, R399, R403) -/

/-- What a TLBINV waits for is over: the barred walks have ended and the noted requests performed. -/
def State.tlbOver (s : State) (m : Cmd) : Bool :=
  match placeAt m.w 2 with
  | some (.glob a) =>
    let d := reqDie a
    let asid := bits (wd m.w 10) 7 0
    !((s.die d).walks.any fun w => decide (w.asid = asid) && w.barred) &&
      !((s.inFlight d asid fun _ => true).any fun i => m.pend.any fun p => p.1 == i)
  | _ => true

/-- The release of a command with REL: its own writes are visible at its scope (R57, R362). -/
def State.relOk (s : State) (c : Nat) (m : Cmd) : Bool :=
  !cmdREL m.w ||
    !(s.fly.any fun f => decide (f.core = c ∧ f.seq = m.seq) && !f.visible (cmdRSCOPE m.w))

/-- A collective or an RCOPY: what is pushed after a BWAIT that covers it performs after its writes (R404). -/
def Cmd.ofFabric (m : Cmd) : Bool := decide (7 ≤ m.op ∧ m.op ≤ 9 ∨ m.op = 12)

/-- Whether a write of a command has not performed. -/
def State.writing (s : State) (c : Nat) (m : Cmd) : Bool :=
  s.fly.any fun f => decide (f.core = c ∧ f.seq = m.seq)

/-- Whether a started command has no act left; one that poison has stopped still releases, and waits for what
a peer has still to acknowledge (R362, R378, R403). -/
def State.cmdOver (s : State) (c : Nat) (m : Cmd) : Bool :=
  if m.stopped then decide (m.sub = 0) && s.relOk c m
  else if m.empty then s.fencesOk c m && s.acqOk c m && s.relOk c m
  else if m.op = 11 then m.rest.isEmpty && s.tlbOver m && s.relOk c m
  else
    m.rest.isEmpty && m.pend.isEmpty && m.outbox.isEmpty && decide (m.sub = 0) &&
      (!m.gathers || decide (m.phase = 2 ∧ m.due = 0)) && s.relOk c m && (!m.ofFabric || !s.writing c m)

/-- COMMAND_COMPLETION (R195, R198, R199). -/
def execCommandCompletion (core seq : Nat) (s : State) : Out :=
  match (s.core core).cmds.find? fun m => decide (m.seq = seq) with
  | none => s.noEvent
  | some m =>
    if m.startedAt ≠ none ∧ s.cmdOver core m then .next ((s.finishCmd core m m.status).reap core)
    else s.noEvent

end Sys2Proof.Machine
end

