-- ==== Sys2Proof/Machine/Vint.lean ====
section
/-!
DEFINITION. The VINT instructions (major 0x08, R100 to R104), per lane and per element.
-/
namespace Sys2Proof.Machine

/-- An operation on the elements of three words: one of 32 bits, or two of 16 (R96, R100). -/
def elems (ty : BitVec 4) (g : (w : Nat) → BitVec w → BitVec w → BitVec w → BitVec w)
    (a b c : Word) : Word :=
  if ty = 0 then g 32 a b c
  else
    g 16 (a.extractLsb' 16 16) (b.extractLsb' 16 16) (c.extractLsb' 16 16) ++
      g 16 (a.extractLsb' 0 16) (b.extractLsb' 0 16) (c.extractLsb' 0 16)

/-- A lane instruction: a value from the operands of each lane that takes part, written to v[VD] of
that lane (R92, R95). -/
def laneOp (f : FmtV) (s : State) (r : Ctx → Nat → Word) : Out :=
  s.issue fun cx => (s.setV cx f.vd.toNat (cx.active f.km) (r cx)).advance cx f.lx

/-- A VINT instruction of element function `g` (R100). -/
def vint (f : FmtV) (s : State) (g : (w : Nat) → BitVec w → BitVec w → BitVec w → BitVec w) : Out :=
  laneOp f s fun cx l => elems f.ty g (f.opA cx l) (f.opB cx l) (f.opC cx l)

/-- A number clamped to the signed w-bit range (R100). -/
def clampS (w : Nat) (x : Int) : BitVec w :=
  if x < -(2 : Int) ^ (w - 1) then BitVec.ofInt w (-(2 : Int) ^ (w - 1))
  else if (2 : Int) ^ (w - 1) - 1 < x then BitVec.ofInt w ((2 : Int) ^ (w - 1) - 1)
  else BitVec.ofInt w x

/-- A number clamped to the unsigned w-bit range (R100). -/
def clampU (w : Nat) (x : Int) : BitVec w :=
  if x < 0 then 0
  else if (2 : Int) ^ w - 1 < x then BitVec.ofInt w ((2 : Int) ^ w - 1)
  else BitVec.ofInt w x

/-- VADD (R100): (a + b) mod 2^w. -/
def execVadd (f : FmtV) (s : State) : Out :=
  vint f s fun _ a b _ => a + b

/-- VSUB (R100): (a − b) mod 2^w. -/
def execVsub (f : FmtV) (s : State) : Out :=
  vint f s fun _ a b _ => a - b

/-- VMUL (R100): low w bits of a × b. -/
def execVmul (f : FmtV) (s : State) : Out :=
  vint f s fun _ a b _ => a * b

/-- VMULH (R100): high w bits of the signed product. -/
def execVmulh (f : FmtV) (s : State) : Out :=
  vint f s fun w a b _ => BitVec.extractLsb' w w (a.signExtend (2 * w) * b.signExtend (2 * w))

/-- VMULHU (R100): high w bits of the unsigned product. -/
def execVmulhu (f : FmtV) (s : State) : Out :=
  vint f s fun w a b _ => BitVec.extractLsb' w w (a.setWidth (2 * w) * b.setWidth (2 * w))

/-- VMAD (R100): low w bits of a × b + c. -/
def execVmad (f : FmtV) (s : State) : Out :=
  vint f s fun _ a b c => a * b + c

/-- VMIN (R100): signed minimum. -/
def execVmin (f : FmtV) (s : State) : Out :=
  vint f s fun _ a b _ => if BitVec.slt b a then b else a

/-- VMAX (R100): signed maximum. -/
def execVmax (f : FmtV) (s : State) : Out :=
  vint f s fun _ a b _ => if BitVec.slt a b then b else a

/-- VMINU (R100): unsigned minimum. -/
def execVminu (f : FmtV) (s : State) : Out :=
  vint f s fun _ a b _ => if BitVec.ult b a then b else a

/-- VMAXU (R100): unsigned maximum. -/
def execVmaxu (f : FmtV) (s : State) : Out :=
  vint f s fun _ a b _ => if BitVec.ult a b then b else a

/-- VABS (R100): |a| mod 2^w. -/
def execVabs (f : FmtV) (s : State) : Out :=
  vint f s fun _ a _ _ => if a.msb then -a else a

/-- VNEG (R100): (−a) mod 2^w. -/
def execVneg (f : FmtV) (s : State) : Out :=
  vint f s fun _ a _ _ => -a

/-- VSADD (R100): signed a + b, clamped. -/
def execVsadd (f : FmtV) (s : State) : Out :=
  vint f s fun w a b _ => clampS w (a.toInt + b.toInt)

/-- VSSUB (R100): signed a − b, clamped. -/
def execVssub (f : FmtV) (s : State) : Out :=
  vint f s fun w a b _ => clampS w (a.toInt - b.toInt)

/-- VSADDU (R100): unsigned a + b, clamped. -/
def execVsaddu (f : FmtV) (s : State) : Out :=
  vint f s fun w a b _ => clampU w (a.toNat + b.toNat : Int)

/-- VSSUBU (R100): unsigned a − b, clamped. -/
def execVssubu (f : FmtV) (s : State) : Out :=
  vint f s fun w a b _ => clampU w ((a.toNat : Int) - b.toNat)

/-- VAND (R100): a AND b. -/
def execVand (f : FmtV) (s : State) : Out :=
  vint f s fun _ a b _ => a &&& b

/-- VOR (R100): a OR b. -/
def execVor (f : FmtV) (s : State) : Out :=
  vint f s fun _ a b _ => a ||| b

/-- VXOR (R100): a XOR b. -/
def execVxor (f : FmtV) (s : State) : Out :=
  vint f s fun _ a b _ => a ^^^ b

/-- VANDN (R100): a AND NOT b. -/
def execVandn (f : FmtV) (s : State) : Out :=
  vint f s fun _ a b _ => a &&& ~~~b

/-- VNOT (R100): NOT a. -/
def execVnot (f : FmtV) (s : State) : Out :=
  vint f s fun _ a _ _ => ~~~a

/-- VSHL (R100): a shifted left by n (R101). -/
def execVshl (f : FmtV) (s : State) : Out :=
  vint f s fun w a b _ => a <<< (b.toNat % w)

/-- VSHR (R100): a shifted right by n, zeros in (R101). -/
def execVshr (f : FmtV) (s : State) : Out :=
  vint f s fun w a b _ => a >>> (b.toNat % w)

/-- VSAR (R100): a shifted right by n, sign copies in (R101). -/
def execVsar (f : FmtV) (s : State) : Out :=
  vint f s fun w a b _ => a.sshiftRight (b.toNat % w)

/-- VROT (R100): a rotated left by n (R101). -/
def execVrot (f : FmtV) (s : State) : Out :=
  vint f s fun w a b _ => a.rotateLeft (b.toNat % w)

/-- VCLZ (R100): leading zero bits, w when a = 0. -/
def execVclz (f : FmtV) (s : State) : Out :=
  vint f s fun w a _ _ => BitVec.ofNat w ((leastFrom (fun i => a.getLsbD (w - 1 - i)) 0 w).getD w)

/-- VPOPC (R100): number of one bits. -/
def execVpopc (f : FmtV) (s : State) : Out :=
  vint f s fun w a _ _ => BitVec.ofNat w ((rangeFrom 0 w).filter fun i => a.getLsbD i).length

/-- VBREV (R100): bit i of a moved to bit w − 1 − i. -/
def execVbrev (f : FmtV) (s : State) : Out :=
  vint f s fun _ a _ _ => a.reverse

/-- Position and width of a bit field: bits [4:0] and [13:8] of operand b, the width at most 32 (R102). -/
def fieldPos (b : Word) : Nat := bits b 4 0
def fieldWidth (b : Word) : Nat := Nat.min 32 (bits b 13 8)

/-- A field of `width` bits of a from bit `pos`, zero- or sign-extended (R102). -/
def bitField (a : Word) (pos width : Nat) (signed : Bool) : Word :=
  let x := (a >>> pos) &&& BitVec.ofNat 32 (2 ^ width - 1)
  if signed && decide (0 < width) && x.getLsbD (width - 1) then x ||| ~~~BitVec.ofNat 32 (2 ^ width - 1)
  else x

/-- VBFX (R102): field extract, sign-extended when IMM8 = 1. -/
def execVbfx (f : FmtV) (s : State) : Out :=
  laneOp f s fun cx l =>
    let b := f.opB cx l
    bitField (f.opA cx l) (fieldPos b) (fieldWidth b) (f.imm8 == 1)

/-- VBFI (R102): field insert into c. -/
def execVbfi (f : FmtV) (s : State) : Out :=
  laneOp f s fun cx l =>
    let b := f.opB cx l
    let m := BitVec.ofNat 32 ((2 ^ fieldWidth b - 1) * 2 ^ fieldPos b)
    (f.opC cx l &&& ~~~m) ||| ((f.opA cx l <<< fieldPos b) &&& m)

/-- VSEL (R103): a where k[IMM8] is set, else b. -/
def execVsel (f : FmtV) (s : State) : Out :=
  laneOp f s fun cx l =>
    if (cx.k f.imm8.toNat).getLsbD l then f.opA cx l else f.opB cx l

/-- VMOV (R103): b. -/
def execVmov (f : FmtV) (s : State) : Out := laneOp f s fun cx l => f.opB cx l

/-- VMOVS (R104): s[VD] := v[VA] of lane IMM8 when that lane takes part and is no helper. -/
def execVmovs (f : FmtV) (s : State) : Out :=
  s.issue fun cx =>
    (if (cx.participants f.km).getLsbD f.imm8.toNat then
        s.setS cx (f.vd.toNat % 64) (cx.v f.va.toNat f.imm8.toNat)
      else s).advance cx f.lx

end Sys2Proof.Machine
end

