-- ==== Sys2Proof/Machine/Vcmp.lean ====
section
/-!
DEFINITION. The VCMP instructions (major 0x09, R105 to R107).
-/
namespace Sys2Proof.Machine

/-- The float format of a lane type: F32, BF16X2, F16X2 (R38). -/
def laneFmt (ty : BitVec 4) : FloatFmt := if ty = 2 then fp32 else if ty = 3 then bf16 else fp16

/-- Element `e` of a word of a packed 16-bit type; the word itself of a 32-bit type (R96). -/
def elemOf (ty : BitVec 4) (w : Word) (e : Nat) : Nat :=
  if ty = 0 ∨ ty = 2 then w.toNat else (w.extractLsb' (16 * e) 16).toNat

/-- Relations written for the lanes of the domain: k[VD] of each, 0 where the lane does not take part
(R105). -/
def cmpOp (f : FmtV) (s : State) (r : Ctx → Nat → Bool) : Out :=
  s.issue fun cx =>
    (s.setK cx (f.vd.toNat % 8) cx.sp.domain
      (maskOfLanes ((lanesOf (cx.active f.km)).filter (r cx)))).advance cx f.lx

/-- An integer comparison of element e (R105, R106). -/
def vicmp (f : FmtV) (s : State) (c : ICmp) : Out :=
  cmpOp f s fun cx l =>
    if f.ty = 0 then c.holds (f.opA cx l) (f.opB cx l)
    else
      let e := f.imm8.toNat % 2
      c.holds ((f.opA cx l).extractLsb' (16 * e) 16) ((f.opB cx l).extractLsb' (16 * e) 16)

/-- A float relation of element e (R106, R107). -/
def vfcmp (f : FmtV) (s : State) (r : FVal → FVal → Bool) : Out :=
  cmpOp f s fun cx l =>
    let e := f.imm8.toNat % 2
    r ((laneFmt f.ty).decode (elemOf f.ty (f.opA cx l) e))
      ((laneFmt f.ty).decode (elemOf f.ty (f.opB cx l) e))

/-- VCEQ (R105): a = b. -/
def execVceq (f : FmtV) (s : State) : Out := vicmp f s .eq

/-- VCNE (R105): a ≠ b. -/
def execVcne (f : FmtV) (s : State) : Out := vicmp f s .ne

/-- VCLT (R105): a < b, signed. -/
def execVclt (f : FmtV) (s : State) : Out := vicmp f s .lt

/-- VCLE (R105): a ≤ b, signed. -/
def execVcle (f : FmtV) (s : State) : Out := vicmp f s .le

/-- VCLTU (R105): a < b, unsigned. -/
def execVcltu (f : FmtV) (s : State) : Out := vicmp f s .ltu

/-- VCLEU (R105): a ≤ b, unsigned. -/
def execVcleu (f : FmtV) (s : State) : Out := vicmp f s .leu

/-- Neither operand is a NaN (R107). -/
def ordered (x y : FVal) : Bool := !x.isNan && !y.isNan

/-- VFCEQ (R105): a = b, ordered. -/
def execVfceq (f : FmtV) (s : State) : Out :=
  vfcmp f s fun x y => ordered x y && !x.lt y && !y.lt x

/-- VFCLT (R105): a < b, ordered. -/
def execVfclt (f : FmtV) (s : State) : Out := vfcmp f s fun x y => ordered x y && x.lt y

/-- VFCLE (R105): a ≤ b, ordered. -/
def execVfcle (f : FmtV) (s : State) : Out := vfcmp f s fun x y => ordered x y && !y.lt x

/-- VFCUN (R105): a or b is a NaN. -/
def execVfcun (f : FmtV) (s : State) : Out := vfcmp f s fun x y => !ordered x y

/-- VFCLASS (R107): the class of a is in the set b[7:0]. -/
def execVfclass (f : FmtV) (s : State) : Out :=
  cmpOp f s fun cx l =>
    (f.opB cx l).getLsbD
      ((laneFmt f.ty).classBit (elemOf f.ty (f.opA cx l) (f.imm8.toNat % 2)))

end Sys2Proof.Machine
end

