-- ==== Sys2Proof/Machine/Vfp.lean ====
section
/-!
DEFINITION. The VFP instructions (major 0x0A, R108 to R112).
-/
namespace Sys2Proof.Machine

/-- The elements of a word of a lane type by a function of the element number (R96). -/
def buildElems (ty : BitVec 4) (g : Nat → Nat) : Word :=
  if ty = 0 ∨ ty = 2 then BitVec.ofNat 32 (g 0)
  else (BitVec.ofNat 16 (g 1)) ++ (BitVec.ofNat 16 (g 0))

/-- The random field of element `e` for elements of w bits (R34). -/
def randomField (w : Nat) (rnd : Word) (e : Nat) : Nat := rnd.toNat / 2 ^ (w * e)

/-- The rounding mode of an element of a lane instruction: RS takes its field from operand c (R34). -/
def laneMode (f : FmtV) (w : Nat) (rnd : Word) (e : Nat) : RMode :=
  rmode f.rm.toNat (randomField w rnd e) w

/-- A code of a lane format as operand, negated by an NG bit (R109). -/
def operand (f : FmtV) (w : Word) (e : Nat) (negate : Bool) : FVal :=
  let x := (laneFmt f.ty).decode (elemOf f.ty w e)
  if negate then x.neg else x

/-- A rounding VFP instruction: `g` gives the exact result from the operands a, b and c (R108). -/
def vfp (f : FmtV) (s : State) (g : RMode → FVal → FVal → FVal → FVal) : Out :=
  laneOp f s fun cx l =>
    let fm := laneFmt f.ty
    buildElems f.ty fun e =>
      let m := laneMode f fm.width (f.opC cx l) e
      fm.round m (f.sat == 1) (g m (operand f (f.opA cx l) e (f.ng.getLsbD 0))
        (operand f (f.opB cx l) e false) (operand f (f.opC cx l) e (f.ng.getLsbD 1)))

/-- A VFP instruction on codes: it never rounds (R110, R111). -/
def vfcode (f : FmtV) (s : State) (g : FloatFmt → Nat → Nat → Nat) : Out :=
  laneOp f s fun cx l =>
    buildElems f.ty fun e =>
      g (laneFmt f.ty) (elemOf f.ty (f.opA cx l) e) (elemOf f.ty (f.opB cx l) e)

/-- VFADD (R109): a + b. -/
def execVfadd (f : FmtV) (s : State) : Out := vfp f s fun m a b _ => a.add m b

/-- VFSUB (R109): a − b. -/
def execVfsub (f : FmtV) (s : State) : Out := vfp f s fun m a b _ => a.add m b.neg

/-- VFMUL (R109): a × b. -/
def execVfmul (f : FmtV) (s : State) : Out := vfp f s fun _ a b _ => a.mul b

/-- VFMA (R109): a × b + c, rounded once. -/
def execVfma (f : FmtV) (s : State) : Out := vfp f s fun m a b c => (a.mul b).add m c

/-- VFMS (R109): a × b − c, rounded once. -/
def execVfms (f : FmtV) (s : State) : Out := vfp f s fun m a b c => (a.mul b).add m c.neg

/-- VFNMA (R109): −(a × b) − c, rounded once. -/
def execVfnma (f : FmtV) (s : State) : Out := vfp f s fun m a b c => (a.mul b).neg.add m c.neg

/-- VFNMS (R109): −(a × b) + c, rounded once. -/
def execVfnms (f : FmtV) (s : State) : Out := vfp f s fun m a b c => (a.mul b).neg.add m c

/-- VFMIN (R110). -/
def execVfmin (f : FmtV) (s : State) : Out := vfcode f s fun fm a b => fm.minmax true a b

/-- VFMAX (R110). -/
def execVfmax (f : FmtV) (s : State) : Out := vfcode f s fun fm a b => fm.minmax false a b

/-- The sign bit of a code. -/
def FloatFmt.signBit (fm : FloatFmt) (a : Nat) : Bool := a.testBit (fm.e + fm.m)

/-- A code with a sign bit given; a NaN becomes the canonical NaN (R111). -/
def FloatFmt.withSign (fm : FloatFmt) (a : Nat) (neg : Bool) : Nat :=
  if (fm.decode a).isNan then fm.nan else fm.signed neg (a % 2 ^ (fm.e + fm.m))

/-- VFABS (R111): a with the sign cleared. -/
def execVfabs (f : FmtV) (s : State) : Out := vfcode f s fun fm a _ => fm.withSign a false

/-- VFNEG (R111): a with the sign inverted. -/
def execVfneg (f : FmtV) (s : State) : Out := vfcode f s fun fm a _ => fm.withSign a (!fm.signBit a)

/-- VFCPYS (R111): the magnitude of a with the sign bit of b. -/
def execVfcpys (f : FmtV) (s : State) : Out := vfcode f s fun fm a b => fm.withSign a (fm.signBit b)

/-- VFRINT (R112): a rounded to an integral value under RM. -/
def execVfrint (f : FmtV) (s : State) : Out :=
  laneOp f s fun cx l =>
    let fm := laneFmt f.ty
    buildElems f.ty fun e =>
      fm.rint (laneMode f fm.width (f.opC cx l) e) (elemOf f.ty (f.opA cx l) e)

end Sys2Proof.Machine
end

