-- ==== Sys2Proof/Machine/Vlx.lean ====
section
/-!
DEFINITION. The cross-lane instructions (major 0x0D, R117 to R122).
-/
namespace Sys2Proof.Machine

/-- A quad exchange: every lane that takes part receives v[VA] of its source lane (R117, R118). -/
def quadOp (f : FmtV) (s : State) (src : Nat → Nat) : Out :=
  laneOp f s fun cx l => f.opA cx (src l)

/-- QSWAPX (R118): lane L xor 1. -/
def execQswapx (f : FmtV) (s : State) : Out := quadOp f s fun l => l ^^^ 1

/-- QSWAPY (R118): lane L xor 2. -/
def execQswapy (f : FmtV) (s : State) : Out := quadOp f s fun l => l ^^^ 2

/-- QSWAPD (R118): lane L xor 3. -/
def execQswapd (f : FmtV) (s : State) : Out := quadOp f s fun l => l ^^^ 3

/-- QBCAST (R118): lane i of the quad. -/
def execQbcast (f : FmtV) (s : State) : Out := quadOp f s fun l => 4 * (l / 4) + f.imm8.toNat

/-- A cross-lane instruction: only participants are written (R117). -/
def crossOp (f : FmtV) (s : State) (r : Ctx → Nat → Word) : Out :=
  s.issue fun cx => (s.setV cx f.vd.toNat (cx.participants f.km) (r cx)).advance cx f.lx

/-- fetch(x) for lane `l` (R118). -/
def fetchLane (f : FmtV) (cx : Ctx) (l : Nat) (x : Option Nat) : Word :=
  match x with
  | some y => if (cx.participants f.km).getLsbD y then f.opA cx y else f.opA cx l
  | none => f.opA cx l

/-- VSHFL (R118): fetch(b). -/
def execVshfl (f : FmtV) (s : State) : Out :=
  crossOp f s fun cx l => fetchLane f cx l (some (f.opB cx l).toNat)

/-- VSHFLUP (R118): fetch(L − n). -/
def execVshflup (f : FmtV) (s : State) : Out :=
  crossOp f s fun cx l =>
    fetchLane f cx l (if f.imm8.toNat ≤ l then some (l - f.imm8.toNat) else none)

/-- VSHFLDN (R118): fetch(L + n). -/
def execVshfldn (f : FmtV) (s : State) : Out :=
  crossOp f s fun cx l => fetchLane f cx l (some (l + f.imm8.toNat))

/-- VBCAST (R118): fetch(i), or of the lowest participant with i = 255. -/
def execVbcast (f : FmtV) (s : State) : Out :=
  crossOp f s fun cx l =>
    fetchLane f cx l
      (if f.imm8 = 255 then lowestLane (cx.participants f.km) else some f.imm8.toNat)

/-- Two element codes combined by an OP code (R119). -/
def combineElem (f : FmtV) (op x y : Nat) : Nat :=
  let w := if f.ty = 0 ∨ f.ty = 2 then 32 else 16
  let fm := laneFmt f.ty
  let sx := (BitVec.ofNat w x).toInt
  let sy := (BitVec.ofNat w y).toInt
  match op with
  | 0 => (x + y) % 2 ^ w
  | 1 => if sy < sx then y else x
  | 2 => if sx < sy then y else x
  | 3 => if y < x then y else x
  | 4 => if x < y then y else x
  | 5 => x &&& y
  | 6 => x ||| y
  | 7 => x ^^^ y
  | 8 =>
    let m := rmode f.rm.toNat 0 w
    fm.round m (f.sat == 1) ((fm.decode x).add m (fm.decode y))
  | 9 => fm.minmax true x y
  | _ => fm.minmax false x y

/-- The identity of an OP code (R119). -/
def identityElem (f : FmtV) (op : Nat) : Nat :=
  let w := if f.ty = 0 ∨ f.ty = 2 then 32 else 16
  let fm := laneFmt f.ty
  match op with
  | 1 => 2 ^ (w - 1) - 1
  | 2 => 2 ^ (w - 1)
  | 3 => 2 ^ w - 1
  | 5 => 2 ^ w - 1
  | 8 => fm.signed true 0
  | 9 => fm.inf
  | 10 => fm.signed true fm.inf
  | _ => 0

/-- The first element of a chain: a NaN becomes the canonical NaN (R120). -/
def canonElem (f : FmtV) (op x : Nat) : Nat :=
  if 8 ≤ op ∧ ((laneFmt f.ty).decode x).isNan then (laneFmt f.ty).nan else x

/-- Two words combined element by element (R119, R120). -/
def combineWord (f : FmtV) (op : Nat) (x y : Word) : Word :=
  buildElems f.ty fun e => combineElem f op (elemOf f.ty x e) (elemOf f.ty y e)

/-- One chain over the participants: for each its lane, what stood before it and the sum with it
(R120). -/
def chain (f : FmtV) (cx : Ctx) (op : Nat) : List Nat → Option Word → List (Nat × Option Word × Word)
  | [], _ => []
  | l :: ls, prev =>
    let x := f.opA cx l
    let acc := match prev with
      | none => buildElems f.ty fun e => canonElem f op (elemOf f.ty x e)
      | some a => combineWord f op a x
    (l, prev, acc) :: chain f cx op ls (some acc)

/-- VREDU (R119, R120): every participant receives the last sum of the chain. -/
def execVredu (f : FmtV) (s : State) : Out :=
  crossOp f s fun cx _ =>
    match (chain f cx (f.imm8.toNat % 16) (lanesOf (cx.participants f.km)) none).getLast? with
    | some (_, _, acc) => acc
    | none => 0

/-- VSCAN (R119, R120): every participant receives its own sum, or with EXC what stood before. -/
def execVscan (f : FmtV) (s : State) : Out :=
  crossOp f s fun cx l =>
    let op := f.imm8.toNat % 16
    match (chain f cx op (lanesOf (cx.participants f.km)) none).find? fun x => decide (x.1 = l) with
    | some (_, prev, acc) =>
      if f.imm8.getLsbD 4 then prev.getD (buildElems f.ty fun _ => identityElem f op) else acc
    | none => 0

/-- VBALLOT (R121): 32 bits of the ballot of the participants with a nonzero value. -/
def execVballot (f : FmtV) (s : State) : Out :=
  crossOp f s fun cx _ =>
    (maskOfLanes ((lanesOf (cx.participants f.km)).filter fun p => decide (f.opA cx p ≠ 0))).extractLsb'
      (32 * f.imm8.toNat) 32

/-- VCOMP (R122): the values of the participants in k[S], packed into the lowest participants. -/
def execVcomp (f : FmtV) (s : State) : Out :=
  crossOp f s fun cx l =>
    let ps := lanesOf (cx.participants f.km)
    let qs := ps.filter fun p => (cx.k f.imm8.toNat).getLsbD p
    match qs[ps.idxOf l]? with
    | some q => f.opA cx q
    | none => 0

end Sys2Proof.Machine
end

