-- ==== Sys2Proof/Machine/Fabric.lean ====
section
/-!
DEFINITION. The fabric: Filzia links, forwarding, collectives at their combiner and RCOPY units at
their target (R390 to R403).
-/
namespace Sys2Proof.Machine

/-! ### Packets in a link hub (R390 to R397) -/

/-- The standing launch of a job (R397). -/
def State.jobOf (s : State) (key : Word) : Option Launch :=
  s.launches.find? fun l => decide (l.pg.key = key)

/-- The table by which this device routes the packets of a job, with the VF whose packets they are: that of a
standing launch, else the one read last (R394, R397). -/
def State.tableOf (s : State) (key : Word) : Option (Nat × PGroup) :=
  match s.jobOf key with
  | some l => some (l.vf, l.pg)
  | none => s.jobs.find? fun x => decide (x.2.key = key)

/-- A link by its number. -/
def State.link (s : State) (n : Nat) : Link := tget {} s.links n
/-- A link changed. -/
def State.modLink (s : State) (n : Nat) (f : Link → Link) : State :=
  { s with links := tset {} s.links n (f (s.link n)) }

/-! ### Answers to fabric commands -/

/-- The answer to a packet of a command: a completion for a contribution, an acknowledgement for an
RCOPY unit, with status bits. It keeps the packet's class and hub. -/
def FabPkt.answer (p : FabPkt) (st : Word) : FabPkt :=
  { kind := if p.kind = 3 then 4 else 2, key := p.key, src := p.dst, dst := p.src, core := p.core
    seq := p.seq, status := st, cls := p.cls, hub := p.hub }

/-- An answer handed to the hub of its die. -/
def State.sendAnswer (s : State) (p : FabPkt) : State := { s with fabric := s.fabric ++ [p] }

/-- An acknowledgement of an RCOPY unit reaches its command (R403). -/
def State.ackUnit (s : State) (p : FabPkt) : State :=
  s.modCmd p.core p.seq fun m => { m with sub := m.sub - 1, status := m.status ||| p.status }

/-- A packet discarded at the hub of die `d`: the command that sent it completes with ERROR (R393, R397). -/
def State.discard (s : State) (d : Nat) (p : FabPkt) : State :=
  if p.kind = 0 ∨ p.kind = 3 then s.sendAnswer { (p.answer bsERROR) with hub := d } else s

/-- A packet whose job names no launch here, answered on the link by which it came (R397). -/
def State.refuse (s : State) (p : FabPkt) : State :=
  if (p.kind = 0 ∨ p.kind = 3) ∧ p.link < 18 then
    s.modLink p.link fun l => { l with outbound := l.outbound ++ [p.answer bsERROR] }
  else s

/-- Whether an earlier packet in the hubs came the same way on the same channel: each is first in, first out
(R314, R391). -/
def State.hubBefore (s : State) (packet : Nat) (p : FabPkt) : Bool :=
  (s.fabric.take packet).any fun q =>
    decide (q.hub = p.hub ∧ q.mesh = p.mesh ∧ q.link = p.link ∧ q.linkVc = p.linkVc)

/-- In diagnostic fixed-latency mode a reply that its stop sends in this cycle takes the input port that the hub
shares with the stop (R334, R390). -/
def State.replyDue (s : State) (d r : Nat) : Bool :=
  let t := if r = 12 then 3 else 7
  s.fixlat && (match (s.stop d t).replies with
    | (_, p) :: _ => (s.die d).canInject (16 + t) (stopRouter t) (stopPort t) s.now [] p
    | [] => false)

/-- A packet goes from the hub of its die into the mesh, toward another hub or a core; none while that input
takes no packet (R312, R390). -/
def State.fromHub (s : State) (p : FabPkt) (x : Packet) (col : Nat) : Option State :=
  let r := hubRouter col
  if (s.die p.hub).canInject (hubEntry r) r (hubPort r) s.now [p.link] x && !s.replyDue p.hub r then
    some (s.modDie p.hub fun d => d.inject p.hub (hubEntry r) r (hubPort r) s.now [p.link] x)
  else none

/-- A packet for this rank: a contribution goes to the combiner, or waits on its link's channel while it needs a
new entry and all are in use; an RCOPY unit waits to be written; an answer goes on to its core (R399, R403). -/
def State.atRank (s : State) (l : Launch) (p : FabPkt) : Option State :=
  if p.kind = 0 then
    if s.entryFor p.entry then some { s with contribs := s.contribs ++ [p] } else none
  else if p.kind = 3 then some { s with rcopies := s.rcopies ++ [p] }
  else
    let vf := match (s.core p.core).cmds.find? fun m => decide (m.seq = p.seq) with
      | some m => m.vf
      | none => l.vf
    s.fromHub p (fabPacket vf p) (clusterOf p.core % 4)

/-- A packet for another rank: out by the link that leads there when this hub holds it and it is up, else over
the mesh to the hub that does. A link takes up to 4 packets of a channel before they have left (R390, R397). -/
def State.onward (s : State) (vf : Nat) (g : PGroup) (p : FabPkt) : Option State :=
  match g.linkTo p.dst with
  | none => some (s.discard p.hub p)
  | some n =>
    if (s.link n).state ≠ 2 then some (s.discard p.hub p)
    else if linkDie n ≠ p.hub then s.fromHub p (hubPacket vf (linkDie n) 0 p) 0
    else if ((s.link n).outbound.filter fun q => decide (q.linkVc = p.linkVc)).length < 4 then
      some (s.modLink n fun l => { l with outbound := l.outbound ++ [p] })
    else none

/-- FABRIC_FORWARD (R397): packet number `packet` of those in the hubs goes on to its rank, whether or not a
launch of its job stands on a device of the path; on its rank's device it is handed over, or discarded when
its job names no launch there. -/
def execFabricForward (packet : Nat) (s : State) : Out :=
  match s.fabric[packet]? with
  | none => s.noEvent
  | some p =>
    let s1 := { s with fabric := s.fabric.eraseIdx packet }
    if s.hubBefore packet p then s.noEvent
    else
      match s.tableOf p.key with
      | none => .next (s1.refuse p)
      | some (vf, g) =>
        match (if p.dst = g.rank then
            (match s.jobOf p.key with
              | some l => s1.atRank l p
              | none => some (s1.refuse p))
          else s1.onward vf g p) with
        | some t => .next t
        | none => s.noEvent

/-! ### Links (R392, R393) -/

/-- The nonce of a frame: the salt of its direction, then its counter (R393). -/
def frameNonce (link gen : Nat) (out : Bool) (count : Nat) : BitVec 96 :=
  Config.linkSalt link gen out ++ BitVec.ofNat 64 count

/-- A frame of some packets under the keys of one direction of a link (R393). -/
def sealFrame (link gen : Nat) (out : Bool) (count : Nat) (pkts : List FabPkt) : Frame :=
  let x := Config.gcm (Config.linkKey link gen out) (frameNonce link gen out count) pkts
  { count, pkts, text := x.1, tag := x.2 }

/-- A frame that has come carries the counter that is due and the tag of its text (R393). -/
def State.authentic (s : State) (n : Nat) (f : Frame) : Bool :=
  let l := s.link n
  f == sealFrame n l.keyGen false l.rxCount f.pkts

/-- LINK_FRAME_ARRIVAL (R393): the next frame of a link passes its tag and its lane checks (`good` says that it
passes the latter), and its packets enter the hub; or it fails, is sent again, and every later frame is
discarded until it comes. -/
def execLinkFrameArrival (link : Nat) (good : Bool) (s : State) : Out :=
  let l := s.link link
  match l.inbound with
  | [] => s.noEvent
  | f :: rest =>
    if l.state ≠ 2 ∨ 8 ≤ l.fails ∨ 2 ^ 48 ≤ l.rxCount then s.noEvent
    else if good && s.authentic link f then
      let s1 := s.modLink link fun l =>
        { l with inbound := rest, rxCount := l.rxCount + 1, fails := 0, retry := false }
      .next { s1 with fabric := s1.fabric ++ f.pkts.map fun p => { p with link, hub := linkDie link, mesh := false } }
    else .next (s.modLink link fun l => { l with fails := l.fails + 1, retry := true })

/-- The packets that a link holds: queued to leave, to be sent again, or on their way to this device. -/
def Link.held (l : Link) : List FabPkt :=
  l.outbound ++ (l.resend ++ l.inbound).flatMap (·.pkts)

/-- A link without anything that it holds, in a state. -/
def Link.emptied (l : Link) (state : Nat) : Link :=
  { l with state, inbound := [], outbound := [], replay := [], resend := [], line := none, asked := none, fails := 0
           txFails := 0, retry := false }

/-- A link loses what it holds, and the parts of vectors that came by it and are not whole: the commands that
sent it complete with ERROR (R393). -/
def State.loseLink (s : State) (n state : Nat) : State :=
  let lost (p : FabPkt) : Bool := decide (p.link = n ∧ p.data.length < p.size)
  let held := (s.link n).held ++ s.contribs.filter lost
  let s1 := s.modLink n fun l => l.emptied state
  held.foldl (fun t p => t.discard (linkDie n) p) { s1 with contribs := s1.contribs.filter fun p => !lost p }

/-- LINK_DOWN (R393): after 8 failures in a row, here or at the neighbour, a link goes down. -/
def execLinkDown (link : Nat) (s : State) : Out :=
  let l := s.link link
  if l.state = 2 ∧ (8 ≤ l.fails ∨ 8 ≤ l.txFails) then .next (s.loseLink link 0) else s.noEvent

/-- A neighbour asks for a frame again: it is sent again from the replay buffer, and those after it in order
(R393). -/
def Link.again (l : Link) (count : Nat) : Link :=
  { l with resend := l.replay.filter fun f => decide (count ≤ f.count), asked := some count
           txFails := if l.asked = some count then l.txFails + 1 else 1 }

/-- Packets that go into one frame of at most 16 flits. -/
def frameOf : List FabPkt → Nat → List FabPkt
  | [], _ => []
  | p :: l, n => if p.flits ≤ n then p :: frameOf l (n - p.flits) else []

/-- A link sends a frame: the next one asked for again, else one of up to 16 flits of the packets whose channels
the neighbour does not stall, which the replay buffer of 64 frames keeps (R391 to R393). -/
def Link.send (n : Nat) (l : Link) : Link :=
  if l.state ≠ 2 then { l with line := none }
  else
    match l.resend with
    | f :: rest => { l with resend := rest, line := some f }
    | [] =>
      let pkts := frameOf (l.outbound.filter fun p => !l.stalls.contains p.linkVc) 16
      if pkts = [] ∨ 2 ^ 48 ≤ l.txCount then { l with line := none }
      else
        let f := sealFrame n l.keyGen true l.txCount pkts
        let log := l.replay ++ [f]
        { l with outbound := pkts.foldl (fun q p => q.erase p) l.outbound, txCount := l.txCount + 1
                 replay := log.drop (log.length - 64), line := some f }

/-- The flits of a channel that a link's receiver holds (R392). -/
def State.linkFlits (s : State) (n vc : Nat) : Nat :=
  (s.fabric.filter fun p => decide (p.link = n ∧ p.linkVc = vc) && !p.mesh).foldl (fun k p => k + p.flits) 0

/-- One cycle of a link: a frame leaves, and the receiver shows a stall for each channel of whose 128 places
fewer than 64 are free (R392). -/
def State.tickLink (s : State) (n : Nat) (l : Link) : Link :=
  { l.send n with shown := (rangeFrom 0 4).filter fun vc => decide (64 < s.linkFlits n vc) }

/-- Whether a link's receiver has room for a frame, whose sender stops within 48 flit times of a stall: 128
places for each channel (R392). -/
def State.linkRoom (s : State) (n : Nat) (f : Frame) : Bool :=
  let coming := ((s.link n).inbound.flatMap (·.pkts)) ++ f.pkts
  (rangeFrom 0 4).all fun vc => decide (s.linkFlits n vc +
    (coming.filter fun p => decide (p.linkVc = vc)).foldl (fun k p => k + p.flits) 0 ≤ 128)

/-- A frame that a neighbour sends: at least one flit and at most 16, of packets of one flit (R308, R393). -/
def State.peerFrame (s : State) (n : Nat) (f : Frame) : State :=
  let k := f.pkts.foldl (fun k p => k + p.flits) 0
  if (s.link n).state = 2 ∧ 1 ≤ k ∧ k ≤ 16 ∧ (∀ p ∈ f.pkts, p.data.length ≤ 256) ∧ s.linkRoom n f then
    { s with links := tmod s.links n fun l => { l with inbound := l.inbound ++ [f] } }
  else s

/-- Frames that have not come across are sent again under renewed keys, with counters from 0; one that was not
authentic stays so. -/
def resealed (link gen : Nat) (out : Bool) (count : Nat) (l : List Frame) : List Frame :=
  l.mapIdx fun i f =>
    if f = sealFrame link gen out (count + i) f.pkts then sealFrame link (gen + 1) out i f.pkts else f

/-- KEY_RENEWAL (R393): the keys of a link's directions are renewed, and its frame counters start
again. -/
def execKeyRenewal (link : Nat) (s : State) : Out :=
  if (s.link link).state = 2 then
    .next (s.modLink link fun l =>
      let again := (l.resend.mapIdx fun i f => sealFrame link (l.keyGen + 1) true i f.pkts)
      { l with txCount := again.length, rxCount := 0, keyGen := l.keyGen + 1, asked := none
               inbound := resealed link l.keyGen false l.rxCount l.inbound
               resend := again, replay := again })
  else s.noEvent

/-- LINK_RETRAIN (R387, R393): a 1 written to bit [31] of LINKST starts training; what the link held is lost. -/
def execLinkRetrain (link value : Nat) (s : State) : Out :=
  if link < 18 ∧ value / 2 ^ 31 % 2 = 1 then .next (s.loseLink link 1) else .next s

/-- LINK_TRAINED (R392): training ends; the link goes up when its round trip is at most 48 flit times and
its keys are set. -/
def execLinkTrained (link roundTrip : Nat) (keys : Bool) (s : State) : Out :=
  if (s.link link).state = 1 then
    .next (s.modLink link fun l =>
      if roundTrip ≤ 48 ∧ keys = true then
        { l with state := 2, txCount := 0, rxCount := 0, keyGen := l.keyGen + 1 }
      else { l with state := 0 })
  else s.noEvent

/-! ### Collectives (R399 to R402) -/

/-- The watchdog of a launch: 0 acts as 2^32 (R401). -/
def Launch.watchdog (l : Launch) : Nat := if l.wdog = 0 then 2 ^ 32 else l.wdog

/-- The watchdog of a launch number. -/
def State.watchdog (s : State) (id : Nat) : Nat :=
  match s.launch? id with
  | some l => l.watchdog
  | none => 2 ^ 32

/-- The operation and type of w11 as combineWord takes them: RNE, SAT 0 (R399). -/
def combineForm (w11 : Word) : FmtV := { (default : FmtV) with ty := BitVec.ofNat _ (bits w11 7 4) }

/-- Words of bytes. -/
def bytesToWords (l : List Byte) (n : Nat) : List Word := (rangeFrom 0 n).map (wordAt l)

/-- Two vectors combined word by word (R399). -/
def combineVec (w11 : Word) (x y : List Word) : List Word :=
  List.zipWith (combineWord (combineForm w11) (bits w11 3 0)) x y

/-- A new combiner entry for a contribution (R399). -/
def entryOf (num : Nat) (c : FabPkt) (launch now : Nat) : Combine :=
  { num, key := c.key, tag := c.words.getD 3 0, op := c.op, w1 := c.words.getD 0 0, w10 := c.words.getD 1 0
    w11 := c.words.getD 2 0, root := c.dst, launch, firstAt := now, parts := [], acc := [] }

/-- Whether an entry does not take a contribution (R399): it differs, or it is a second root contribution
or a non-root one too many of a BCAST. -/
def Combine.rejects (e : Combine) (c : FabPkt) : Bool :=
  let isRoot := c.src == e.root
  c.op != e.op || c.words.getD 0 0 != e.w1 || c.words.getD 1 0 != e.w10 || c.words.getD 2 0 != e.w11 ||
    (e.op == 9 && (if isRoot then e.rootIn
      else decide (e.w10.toNat ≤ (e.parts.filter fun p => p.src != e.root).length + 1)))

/-- A contribution added to an entry (R399). -/
def Combine.add (e : Combine) (c : FabPkt) : Combine :=
  let data := bytesToWords c.data e.w1.toNat
  let isRoot := c.src == e.root
  { e with
    parts := e.parts ++ [c]
    acc := if e.op = 9 then (if isRoot then data else e.acc)
           else if e.parts = [] then data else combineVec e.w11 e.acc data
    bad := e.bad ++ c.bad
    status := e.status ||| c.status
    rootIn := e.rootIn || isRoot }

/-- The answers to the contributors of a complete entry, packet by packet (R399). -/
def Combine.results (e : Combine) : List FabPkt :=
  let data := e.acc.flatMap fun w => natLe w.toNat 4
  let rootAt := e.parts.findIdx? fun p => p.src == e.root
  (rangeFrom 0 e.parts.length).flatMap fun i =>
    match e.parts[i]? with
    | none => []
    | some p =>
      let b : FabPkt := { kind := 1, key := e.key, src := e.root, dst := p.src, core := p.core, seq := p.seq
                          data, bad := e.bad, status := e.status, cls := p.cls, hub := p.hub }
      (if e.op = 7 ∧ rootAt ≠ some i then { b with kind := 2, data := [], bad := [] } else b).chunks

/-- Whether a contribution came from this device itself: its rank is the combiner's. -/
def FabPkt.isLocal (p : FabPkt) : Bool := p.link == 18

/-- The packets that carry one vector: of one command of one rank. -/
def FabPkt.sameVector (p q : FabPkt) : Bool :=
  decide (p.key = q.key ∧ p.src = q.src ∧ p.core = q.core ∧ p.seq = q.seq ∧ p.link = q.link)

/-- A vector put together from its packets. -/
def joinVector (p : FabPkt) (l : List FabPkt) : FabPkt :=
  let t := l.foldl (fun t q => tblWrite t q.off q.data) []
  { p with off := 0, data := tblBytes t 0 p.size, bad := l.flatMap (·.bad) }

/-- The contribution that a packet which waits at the combiner completes, and the state without its packets;
none while others are still to come (R308, R399). -/
def State.wholeContribution (s : State) (i : Nat) (p : FabPkt) : Option (FabPkt × State) :=
  if p.data.length = p.size then some (p, { s with contribs := s.contribs.eraseIdx i })
  else
    let l := s.contribs.filter p.sameVector
    if l.foldl (fun n q => n + q.data.length) 0 < p.size then none
    else some (joinVector p l, { s with contribs := s.contribs.filter fun q => !p.sameVector q })

/-- The launch of a combiner entry that a contribution opens: of its command when it is of this device, else
that of its job (log entry 47). -/
def State.entryLaunch (s : State) (c : FabPkt) : Nat :=
  match (s.core c.core).cmds.find? fun m => c.isLocal && decide (m.seq = c.seq) with
  | some m => m.launch
  | none => ((s.jobOf c.key).map (·.id)).getD 0

/-- An entry has stood the watchdog of its launch (R401). -/
def State.entryOver (s : State) (e : Combine) : Bool := decide (e.firstAt + s.watchdog e.launch ≤ s.now)

/-- An entry freed, its contributors answered TIMEOUT (R401). -/
def State.timeOut (s : State) (e : Combine) : State :=
  e.parts.foldl (fun t p => t.sendAnswer (p.answer bsTIMEOUT))
    { s with combiner := s.combiner.filter fun x => decide (x.num ≠ e.num) }

/-- A contribution combined into an entry, or refused with ERROR; a complete entry answers its contributors
(R399). -/
def State.combineIn (s : State) (e : Combine) (c : FabPkt) : State :=
  if e.rejects c then s.sendAnswer (c.answer bsERROR)
  else
    let e1 := e.add c
    let others := s.combiner.filter fun x => decide (x.num ≠ e.num)
    if e1.parts.length = e1.w10.toNat then e1.results.foldl State.sendAnswer { s with combiner := others }
    else { s with combiner := others ++ [e1] }

/-- CONTRIBUTION_ARRIVAL (R399, R401): the contribution that packet number `contribution` of those at this
rank's combiner belongs to is combined, once it is whole. One that comes after the watchdog of its entry opens
a new entry. -/
def execContributionArrival (contribution : Nat) (s : State) : Out :=
  match s.contribs[contribution]? with
  | none => s.noEvent
  | some p =>
    match s.wholeContribution contribution p with
    | none => s.noEvent
    | some (c, s1) =>
      match s1.combiner.find? fun e => decide (e.key = c.key ∧ e.tag = c.words.getD 3 0) with
      | some e =>
        if s1.entryOver e then
          let s2 := s1.timeOut e
          .next (s2.freshUid.2.combineIn (entryOf s2.freshUid.1 c (s2.entryLaunch c) s2.now) c)
        else .next (s1.combineIn e c)
      | none =>
        if 256 ≤ s1.combiner.length then s.noEvent
        else .next (s1.freshUid.2.combineIn (entryOf s1.freshUid.1 c (s1.entryLaunch c) s1.now) c)

/-- COMBINER_TIMEOUT (R401): an entry that has stood the watchdog of its launch is freed, and its
contributors are answered TIMEOUT. -/
def execCombinerTimeout (entry : Nat) (s : State) : Out :=
  match s.combiner.find? fun e => decide (e.num = entry) with
  | none => s.noEvent
  | some e => if s.entryOver e then .next (s.timeOut e) else s.noEvent

/-- Whether the watchdog of a fabric command has expired (R401). -/
def State.expired (s : State) (m : Cmd) : Bool :=
  (m.gathers || s.isRemote m) && (match m.startedAt with
    | some t => decide (t + s.watchdog m.launch ≤ s.now)
    | none => false)

/-- CONTRIBUTOR_TIMEOUT (R401): a fabric command whose watchdog expires completes with TIMEOUT and
writes nothing. -/
def execContributorTimeout (core seq : Nat) (s : State) : Out :=
  match (s.core core).cmds.find? fun m => decide (m.seq = seq) with
  | none => s.noEvent
  | some m =>
    if s.expired m ∧ m.phase < 2 then
      .next ((s.finishCmd core m (m.status ||| bsTIMEOUT)).reap core)
    else s.noEvent

/-- A packet of a result kept by its contributor, which writes the vector once it is whole; a completion ends
the wait (R399, R401). -/
def Cmd.withResult (m : Cmd) (p : FabPkt) : Cmd :=
  let m1 := if m.phase = 2 then m
    else { m with phase := 2, rest := [], status := m.status ||| p.status, buf := [], bufBad := []
                  due := if p.kind = 1 then p.size else 0 }
  if p.kind ≠ 1 then m1
  else
    let m2 := { m1 with buf := tblWrite m1.buf p.off p.data, bufBad := m1.bufBad ++ p.bad, due := m1.due - p.data.length }
    if m2.due = 0 then { m2 with outbox := vectorBox (tblBytes m2.buf 0 p.size) m2.bufBad } else m2

/-- Whether a contributor takes a packet of a result: its first before the watchdog has expired, and then the
others; a refusal may come before the contribution has been sent whole (R401). -/
def State.takesResult (s : State) (m : Cmd) (p : FabPkt) : Bool :=
  if m.phase = 2 then decide (p.kind = 1 ∧ m.due ≠ 0)
  else (decide (m.phase = 1) || decide (m.sent ≠ 0)) && !s.expired m

/-- RESULT_ARRIVAL (R401, R403): result number `result` of those that have arrived reaches its contributor, or
is discarded when the command has ended or decided otherwise; an acknowledgement reaches the RCOPY. -/
def execResultArrival (result : Nat) (s : State) : Out :=
  match s.results[result]? with
  | none => s.noEvent
  | some p =>
    let s1 := { s with results := s.results.eraseIdx result }
    match (s.core p.core).cmds.find? fun m => decide (m.seq = p.seq) with
    | none => .next s1
    | some m =>
      if p.kind = 4 then .next (s1.ackUnit p)
      else if s.takesResult m p then .next (s1.modCmd p.core m.seq fun m => m.withResult p) else .next s1

/-! ### RCOPY units at their target (R403) -/

/-- Whether a request to a unit, or the read of an open entry for it, has still to perform at its stop, so that
a later write must wait (R281). -/
def State.stopBusy (s : State) (d pa : Nat) : Bool :=
  let t := s.stop d (stopOfPa pa)
  (t.inq.any fun r => decide (r.pa = pa)) || t.folds.any fun f => decide (f.key.1 = pa) && !f.done

/-- The bytes of an RCOPY unit written at their homes on this device, unit by unit: the status bits, or
none while an earlier request to one of the units waits. Each die memory unit counts as a write at its stop
(R284). -/
def State.putRcopy (s : State) (l : Launch) (poison : Bool) :
    Nat → Nat → List Byte → Word → Option (Word × State)
  | 0, _, _, st => some (st, s)
  | fuel + 1, va, data, st =>
    if data = [] then some (st, s)
    else
      let d := reqDie va
      let (u, y) := (s.die d).look l.asid l.vf va 1
      let s := s.modDie d fun _ => y
      match u with
      | .error e => some (st ||| e, s)
      | .ok t =>
        let k := t.unit - va % t.unit
        let now_ := data.take k
        if va / 2 ^ 53 % 8 = 4 then
          if t.leaf.quar then s.putRcopy l poison fuel (va + k) (data.drop k) (st ||| bsERROR) else
          (s.hostWriteUnit (t.pa + va % 64) now_ poison).putRcopy l poison fuel (va + k) (data.drop k) st
        else if s.stopBusy d t.pa then none
        else
          let counted := s.modStop d (stopOfPa t.pa) fun y => { y with fwrt := y.fwrt + 1 }
          let (e, s1) := counted.performWrite d (64 * d) (some l.id) l.vf va t.pa (va % t.unit) t.leaf now_ poison
          s1.putRcopy l poison fuel (va + k) (data.drop k) (st ||| e)

/-- RCOPY_UNIT_ARRIVAL (R403): unit number `unit` of those that have arrived is checked and written here,
and acknowledged. -/
def execRcopyUnitArrival (unit : Nat) (s : State) : Out :=
  match s.rcopies[unit]? with
  | none => s.noEvent
  | some p =>
    let s1 := { s with rcopies := s.rcopies.eraseIdx unit }
    match s.jobOf p.key with
    | none => .next (s1.refuse p)
    | some l =>
      if 4 < ownerOf p.va then .next (s1.sendAnswer (p.answer bsERROR))
      else
        match s1.putRcopy l p.poison 9 p.va p.data 0 with
        | none => s.noEvent
        | some (st, s2) => .next (s2.sendAnswer (p.answer st))

end Sys2Proof.Machine
end

