-- ==== Sys2Proof/Machine/Fair.lean ====
section
/-!
DEFINITION. The fairness rules of a group (R150, R151), the rollback that a soft error causes (R219 to
R221), and the power states (R386).
-/
namespace Sys2Proof.Machine

/-- Whether a split holds a reservation (R151). -/
def Group.holds (g : Group) (p : Split) : Bool := g.resv.any fun r => p.domain.getLsbD r.1

/-- Whether another resident split of the group holds a reservation (R151). -/
def Group.heldBack (g : Group) (p : Split) : Bool :=
  g.splits.any fun q => decide (q.id ≠ p.id ∧ q.place < 64) && g.holds q

/-- A resident ready split that has not issued for the fairness period and is not due yet (R150). -/
def Group.starved (g : Group) (p : Split) : Bool :=
  !g.trap.active && !g.claimed && !p.handler && !p.due && decide (p.place < 64 ∧ p.wait = 0 ∧ 256 ≤ p.idle)

/-- Whether a starved split is due now: nothing holds the rule back, or it has been for 64 cycles
(R150, R151). -/
def Group.dueNow (g : Group) (p : Split) : Bool :=
  g.starved p && (!g.heldBack p || decide (64 ≤ p.grace))

/-- The split of a group with an id that may issue. -/
def Group.split? (g : Group) (id : Nat) : Option Split := g.splits.find? (g.issues id)

/-- A split of a group becomes due (R150). -/
def State.makeDue (s : State) (c g id : Nat) : State :=
  s.modGroup c g fun y =>
    { y with splits := y.splits.map fun p => if y.issues id p then { p with due := true, grace := 0 } else p }

/-- FAIRNESS_DUE (R150): a resident ready split that has not issued for 256 cycles becomes due, when no
other split's reservation holds the rule back. -/
def execFairnessDue (core slot split : Nat) (s : State) : Out :=
  match s.group? core slot with
  | none => s.noEvent
  | some g =>
    match g.split? split with
    | none => s.noEvent
    | some p =>
      if g.starved p && !g.heldBack p then .next (s.makeDue core slot split)
      else s.noEvent

/-- The oldest split of a group that satisfies `p` (R146). -/
def Group.oldestOf (g : Group) (slot cycle : Nat) (p : Split → Bool) : Option Split :=
  (g.splits.filter p).foldl (fun best sp =>
    match best with
    | none => some sp
    | some q => if older cycle slot sp slot q then some sp else best) none

/-- The splits that a paddock swap of the group exchanges: the oldest resident one and the oldest ready
dormant one (R150). -/
def State.swapPair (s : State) (c slot : Nat) (g : Group) : Option (Split × Split) :=
  if g.trap.active ∨ g.claimed ∨ !g.padDue then none
  else
    match g.oldestOf slot (s.cycle c) (fun p => decide (p.place < 64)),
        g.oldestOf slot (s.cycle c) (fun p => decide (64 ≤ p.place ∧ p.wait = 0)) with
    | some r, some d => some (r, d)
    | _, _ => none

/-- Two splits of a group exchange their places (R146). -/
def State.exchange (s : State) (c g : Nat) (r d : Split) : State :=
  (s.modGroup c g fun y =>
    (y.setPlace r.id r.handler d.place s.now).setPlace d.id d.handler r.place s.now).journalPads c g

/-- A paddock swap made (R150). -/
def State.swapPlaces (s : State) (c g : Nat) (r d : Split) : State :=
  (s.exchange c g r d).modGroup c g fun y => { y with padDue := false, padGrace := 0 }

/-- PADDOCK_SWAP (R150): at each 256th cycle of the paddock timer the oldest resident split and the oldest
ready dormant split exchange places, unless a reservation holds the rule back. -/
def execPaddockSwap (core slot : Nat) (s : State) : Out :=
  match s.group? core slot with
  | none => s.noEvent
  | some g =>
    match s.swapPair core slot g with
    | none => s.noEvent
    | some (r, d) =>
      if g.holds r then s.noEvent else .next (s.swapPlaces core slot r d)

/-- RESERVATION_GRACE_END (R151): 64 cycles after a fairness rule first came due against a split with a
reservation, the rule takes effect: `split` becomes due, or is swapped out. -/
def execReservationGraceEnd (core slot split : Nat) (s : State) : Out :=
  match s.group? core slot with
  | none => s.noEvent
  | some g =>
    match g.split? split, s.swapPair core slot g with
    | none, _ => s.noEvent
    | some p, none =>
      if g.starved p && decide (64 ≤ p.grace) then .next (s.makeDue core slot split)
      else s.noEvent
    | some p, some (r, d) =>
      if g.starved p && decide (64 ≤ p.grace) then .next (s.makeDue core slot split)
      else if r.id = split ∧ g.holds r ∧ 64 ≤ g.padGrace then .next (s.swapPlaces core slot r d)
      else s.noEvent

/-- SOFT_ERROR_ROLLBACK (R219, R221): an uncorrectable soft error rolls the block back when its interval
can be, once its commands of earlier intervals have completed; else, or when the error lies in the undo
journal or is found while that is written back, the block fails with cause 0x40. -/
def execSoftErrorRollback (core block : Nat) (s : State) : Out :=
  match s.block? core block with
  | none => s.noEvent
  | some k =>
    if k.ended then s.noEvent
    else
      match k.rolling with
      | some m =>
        if k.jbad then .next (s.failBlock core block 0x40 (s.blockPc core block) 0)
        else if s.rollbackWaits core block then s.noEvent
        else .next (s.rollback core block m)
      | none =>
        if k.rollok.getLsbD 0 && !k.jbad then .next (s.beginRollback core block false)
        else .next (s.failBlock core block 0x40 (s.blockPc core block) 0)

/-! ### Power (R386) -/

/-- CORE_POWER_GATE (R237, R386): in D0 a core that has held no group for 10,000 cycles is power-gated; a
stolen record that it has not acknowledged is lost with it. -/
def execCorePowerGate (core : Nat) (s : State) : Out :=
  let x := s.core core
  if !s.d3hot && !x.gated && x.groups.isEmpty && decide (x.emptyAt + 10000 ≤ s.now) then
    .next (s.modCore core fun x => { x.unacked (fun _ => true) with gated := true })
  else s.noEvent

/-- POWER_STATE_CHANGE (R386): between D0 and D3hot. -/
def execPowerStateChange (d3hot : Bool) (s : State) : Out :=
  if s.d3hot = d3hot then s.noEvent else .next { s with d3hot := d3hot }

/-- MODULE_POWER_LIMIT (R386): cores and engines begin or stop to withhold issue cycles, which changes
time only. -/
def execModulePowerLimit (on : Bool) (s : State) : Out :=
  if s.limiting = on then s.noEvent else .next { s with limiting := on }

end Sys2Proof.Machine
end

