-- ==== Sys2Proof/Machine/Clock.lean ====
section
/-!
DEFINITION. One cycle of the arithmetic clock: timers of groups (R150, R151, R293), packets that leave
cores, stops, bridge lanes and links (R210, R312, R315, R392), and the cycle of each mesh.
-/
namespace Sys2Proof.Machine

/-! ### Timers -/

/-- A split after one more cycle: the count of R150 of one that is ready, resident or dormant, and the count
of R151 of one that a reservation keeps from becoming due. -/
def Group.tickSplit (g : Group) (p : Split) : Split :=
  if p.handler ∨ p.wait ≠ 0 then p
  else if g.starved p && g.heldBack p then { p with grace := Nat.min 64 (p.grace + 1) }
  else { p with idle := Nat.min 256 (p.idle + 1) }

/-- A group has a dormant ready split (R150). -/
def Group.dormantReady (g : Group) : Bool := g.splits.any fun p => decide (64 ≤ p.place ∧ p.wait = 0)

/-- Whether a trap has stopped the fairness counts of a group: its splits are frozen, or its handler runs
(R164). -/
def Group.frozen (g : Group) : Bool := g.trap.active || g.splits.any fun p => decide (p.eff = 4)

/-- The paddock timer, the swap that each 256th count calls for, and the grace count of a swap held back,
after one more cycle (R150, R151). -/
def Group.tickPad (g : Group) (due : Bool) : Group :=
  if g.dormantReady then
    { g with padTimer := g.padTimer + 1
             padDue := g.padDue || decide ((g.padTimer + 1) % 256 = 0)
             padGrace := if due then Nat.min 64 (g.padGrace + 1) else 0 }
  else { g with padTimer := 0, padDue := false, padGrace := 0 }

/-- The unhitch timer counts: the group is hitched and no unit of it is held (R293). -/
def Core.hitchCounts (x : Core) (slot : Nat) (g : Group) : Bool :=
  let st := bits g.cv.stat 6 4
  decide (g.cv.id ≠ 0 ∧ (st = 1 ∨ st = 2 ∨ st = 4)) &&
    !(x.cmds.any fun m => decide (m.slot = slot ∧ m.uid = g.uid) && m.held.isSome)

/-- A group of core `c` after one more cycle. A trap or a debugger's claim stops the fairness counts (R150,
R164, R168). -/
def State.tickGroup (s : State) (c slot : Nat) (g : Group) : Group :=
  let due := match s.swapPair c slot g with
    | some (r, _) => g.holds r
    | none => false
  let g1 := if g.frozen ∨ g.claimed then g
    else ({ g with splits := g.splits.map g.tickSplit } : Group).tickPad due
  { (if (s.core c).hitchCounts slot g then { g1 with cv := { g1.cv with timer := g1.cv.timer + 1 } } else g1) with
    statNow := 0 }

/-- The timers of a core after one more cycle. -/
def State.tickCore (s : State) (c : Nat) : State :=
  s.modCore c fun x => { x with groups := x.groups.map fun (kg : Nat × Group) => (kg.1, s.tickGroup c kg.1 kg.2) }

/-! ### What leaves a core, a stop and a link -/

/-- A packet of core `c` enters its router when that takes it; `t` is the machine without it at its source
(R307, R312, R315). -/
def State.offerPacket (s : State) (c : Nat) (who : List Nat) (p : Packet) (t : State) : State :=
  let n := clusterOf c % 16
  if (s.die (dieOf c)).canInject n n pLocal s.now who p then
    t.modDie (dieOf c) fun x => x.inject (dieOf c) n n pLocal s.now who p
  else s

/-- A message of core `c` enters its router when that takes it (R312). -/
def State.offer (s : State) (c : Nat) (m : Msg) (t : State) : State :=
  s.offerPacket c [clusterOf c % 16, coreNo c] (msgPacket m) t

/-- The first NACK of a core leaves it (R208). -/
def State.sendNack (s : State) (c : Nat) : State :=
  match (s.core c).outNacks with
  | [] => s
  | m :: rest => s.offer c m (s.modCore c fun x => { x with outNacks := rest })

/-- The first seal request of a core leaves it (R303, R305). -/
def State.sendAsk (s : State) (c : Nat) : State :=
  match (s.core c).asks with
  | [] => s
  | (a, lift) :: rest => s.offerPacket c [] (askPacket a lift) (s.modCore c fun x => { x with asks := rest })

/-- What belongs to a stolen task has left its core: the lease of a record runs from then on, and the thief has
acknowledged (R237). -/
def State.taskLeft (s : State) (c : Nat) (m : TaskMsg) : State :=
  match m with
  | .record _ r => s.modTask c r.tslot fun e => if e.state = 2 ∧ e.lease = r.lease then { e with leaseAt := s.now } else e
  | .ack _ r => s.modCore c fun x => { x with stolen := x.stolen.map fun q =>
      if q.lease = r.lease then { q with acked := true } else q }
  | _ => s

/-- The first record, acknowledgement, NACK or report of a core leaves it (R237). -/
def State.sendTask (s : State) (c : Nat) : State :=
  match (s.core c).outTasks with
  | [] => s
  | m :: rest => s.offerPacket c [clusterOf c % 16, coreNo c] (taskPacket m)
      ((s.modCore c fun x => { x with outTasks := rest }).taskLeft c m)

/-- The first message that a group may send: the stores before it have performed (R210). -/
def Group.nextOut (g : Group) : Option OutMsg :=
  match g.q.out with
  | o :: _ => if o.stores ≤ g.q.stOut then some o else none
  | [] => none

/-- The first message of a group taken out of its queue. -/
def Group.dropOut (g : Group) : Group := { g with q := { g.q with out := g.q.out.drop 1 } }

/-- The next message of a group leaves its core, which exposes its block's interval when it was sent in it
(R210, R217). -/
def State.sendMsg (s : State) (c slot : Nat) : State :=
  match s.group? c slot with
  | none => s
  | some g =>
    match g.nextOut with
    | none => s
    | some o => s.offer c o.msg ((s.modGroup c slot Group.dropOut).exposeIn c g.block o.interval)

/-- A list that begins at its place `n`. -/
def rotate {α : Type} (l : List α) (n : Nat) : List α :=
  if l.length ≤ 1 then l else l.drop (n % l.length) ++ l.take (n % l.length)

/-- What a core has to send: its next NACK, its next seal request, what comes next of stolen tasks, and the next
message of each group. -/
def Core.sends (x : Core) (c : Nat) : List (State → State) :=
  (if x.outNacks = [] then [] else [(·.sendNack c)]) ++ (if x.asks = [] then [] else [(·.sendAsk c)]) ++
    (if x.outTasks = [] then [] else [(·.sendTask c)]) ++
    (x.groups.filter fun kg => kg.2.nextOut.isSome).map fun kg t => t.sendMsg c kg.1

/-- A reply of a stop enters its router (R312, R315): the first that has fallen due, or outside
fixed-latency mode the first that finds no stall, since a stall holds only its own channel (R334). Its entry
frees (R280). -/
def State.pumpStop (s : State) (d t : Nat) : State :=
  let l := (s.stop d t).replies
  let ok (p : Nat × Packet) : Bool :=
    (s.die d).canInject (16 + t) (stopRouter t) (stopPort t) s.now [] p.2
  match (if s.fixlat then l.head?.filter ok else l.find? ok) with
  | none => s
  | some (n, p) =>
    (s.modStop d t fun y =>
      { y with
        replies := y.replies.erase (n, p)
        folds := y.folds.filter fun f => !(f.done && decide (f.num = n)) }).modDie d fun x =>
      x.inject d (16 + t) (stopRouter t) (stopPort t) s.now [] p

/-- A confirmation or bound of a die's controller enters its router (R292, R303). -/
def State.pumpCtl (s : State) (d : Nat) : State :=
  match (s.die d).outCtl with
  | [] => s
  | p :: rest =>
    if (s.die d).canInject ctlRouter ctlRouter pLocal s.now [] p then
      s.modDie d fun x =>
        Die.inject { x with outCtl := rest } d ctlRouter ctlRouter pLocal s.now [] p
    else s

/-- What enters the mesh of a die from its controller, its stops and the bridge. -/
def State.pumpDie (s : State) (d : Nat) : State :=
  ((rangeFrom 0 8).foldl (fun t i => t.pumpStop d i) (s.pumpCtl d)).drainLanes d

/-- What the cores send in a cycle: a router's local input takes one packet, and where more than one waits,
which goes first is left free (R307). Groups that have ended and whose last message has left are swept
(R199). -/
def State.pumpCores (s : State) : State :=
  let (n, s1) := s.freshFree
  let k := (Config.freeByte n).toNat
  let t := (rotate (s.cores.filter fun kc => kc.2.sends kc.1 ≠ []) k).foldl (fun t kc =>
    (rotate (kc.2.sends kc.1) k).foldl (fun u f => f u) t) s1
  (s.cores.map (·.1)).foldl State.reap t

/-! ### One cycle -/

/-- One cycle of the clock passes. -/
def State.tick (s : State) : State :=
  let s1 := s.pumpCores
  let sent := (rangeFrom 0 4).foldl State.pumpDie s1
  let s2 := (rangeFrom 0 4).foldl (fun t d => (t.endCycle sent d).sweepSeals d) sent
  let s3 := (s.cores.map (·.1)).foldl State.tickCore s2
  let s4 := { s3 with links := s3.links.map fun (kl : Nat × Link) => (kl.1, s3.tickLink kl.1 kl.2), now := s3.now + 1 }
  let s5 := (rangeFrom 0 4).foldl State.land s4
  s5.releaseTasks.ctxTick.resumeAll

end Sys2Proof.Machine
end

