-- ==== Sys2Proof/Machine/Convoys.lean ====
section
/-!
DEFINITION. Convoys on their owner die: answers to CVJOIN, bounds sent to members, and the unhitch timer
(R288 to R298).
-/
namespace Sys2Proof.Machine

/-- The granule of the page at a stream's start address, when the address lies on a die and is mapped
(R288, R298). -/
def State.streamGranule (s : State) (a : Ask) : Option Nat :=
  if 2 ^ 56 ≤ a.addr ∨ 3 < ownerOf a.addr then none
  else ((s.die (ownerOf a.addr)).walk a.asid a.vf a.addr).map fun x => granBytes x.1.gran

/-- The CVJOIN status word (R298). -/
def joinWord (code member : Nat) : Word := BitVec.ofNat 32 (member * 256 + code)

/-- What the owner die decides about a CVJOIN: code, member index, the new state of the convoy slot, and
whether it is an unhitch event. -/
structure JoinAnswer where
  code : Nat
  member : Nat := 0
  slot : Nat := 0
  convoy : Convoy := {}

/-- A refusal that leaves the group in no convoy (codes 8 to 11). -/
def noJoin (code : Nat) : JoinAnswer := { code }

/-- A join as a new member of a convoy: hitched, or unhitched when it lies too far behind (R295). -/
def joinNew (k : Nat) (v : Convoy) (a : Ask) : JoinAnswer :=
  match leastFrom (fun i => (tfind? v.members i).isNone) 0 32 with
  | none => noJoin 9
  | some i =>
    let ok := v.accepts i 0
    let m : Member := { core := a.core, slot := a.slot, uid := a.uid, part := a.part, state := if ok then 1 else 3 }
    { code := if ok then 2 else 3, member := i, slot := k, convoy := { v with members := tput v.members i m } }

/-- A CVJOIN of a group that is a member: already hitched, or a rehitch (R295, R298). -/
def joinAgain (k : Nat) (v : Convoy) (i : Nat) (m : Member) : JoinAnswer :=
  if m.isHitched then { code := 6, member := i, slot := k, convoy := v }
  else if v.accepts i m.front then
    { code := 4, member := i, slot := k
      convoy := { v with members := tput v.members i { m with state := 4, due := [], here := [] } } }
  else { code := 5, member := i, slot := k, convoy := v }

/-- The owner die's decision (R298). -/
def State.decideJoin (s : State) (d : Nat) (a : Ask) : JoinAnswer :=
  match s.streamGranule a with
  | none => noJoin 11
  | some g =>
    if a.addr % g ≠ 0 then noJoin 11
    else
      match (s.die d).convoyOf a.vf a.addr with
      | some (k, v) =>
        match v.members.find? fun km => decide (km.2.core = a.core ∧ km.2.slot = a.slot ∧ km.2.uid = a.uid) with
        | some (i, m) => joinAgain k v i m
        | none => joinNew k v a
      | none =>
        if a.rein = 0 ∨ a.rein % g ≠ 0 ∨ 1048576 < a.rein then noJoin 10
        else
          match leastFrom (fun k => (tget {} (s.die d).convoys k).members == []) 0 64 with
          | none => noJoin 8
          | some k =>
            let m : Member := { core := a.core, slot := a.slot, uid := a.uid, part := a.part, state := 1 }
            { code := 1, slot := k
              convoy := { gen := (tget {} (s.die d).convoys k).gen, vf := a.vf, addr := a.addr, rein := a.rein
                          g, members := [(0, m)] } }

/-- A group's convoy registers after the answer (R289, R295, R298, R300). -/
def Group.joined (g : Group) (d : Nat) (r : JoinAnswer) : Group :=
  let v := r.convoy
  let m := tget ⟨0, 0, 0, 0, 0, 0, 1, [], []⟩ v.members r.member
  let refused := r.code == 3 || r.code == 5
  let stat := cvStat g.cv.stat (r.code == 3) (r.code == 4) (if refused then some 5 else none) m.state
  { (if r.code = 3 then g.setFlag statCVUNH else g) with
    cv := { g.cv with
      id := cvId v.gen d r.slot, slip := BitVec.ofNat 32 v.rein, off := BitVec.ofNat 32 m.front
      members := v.membersWord r.member, stat
      timer := if r.code = 6 then g.cv.timer else 0
      bound := if r.code = 6 then g.cv.bound else v.bound r.member } }

/-- CONVOY_ANSWER (R298): the owner die answers the CVJOIN that reached it first. Codes 8 to 11 leave the
group in no convoy; a request that no split waits for any longer has no effect. -/
def execConvoyAnswer (die : Nat) (s : State) : Out :=
  match (s.die die).joins with
  | [] => s.noEvent
  | a :: rest =>
    let s1 := s.modDie die fun x => { x with joins := rest }
    match s.group? a.core a.slot with
    | none => .next s1
    | some g =>
      if g.uid ≠ a.uid ∨ !s.asking a then .next s1
      else
        let r := s.decideJoin die a
        let w := joinWord r.code r.member
        if 8 ≤ r.code then .next ((s1.leaveConvoy a.core a.slot).answerAsk a w)
        else
          let s2 := (s1.modDie die fun x => { x with convoys := tput x.convoys r.slot r.convoy }).modGroup
            a.core a.slot fun g => g.joined die r
          .next ((s2.sendBounds die r.slot).answerAsk a w)

/-- The number of the bound that a member's engine receives next: in fixed-latency mode the first one whose
cycle has come, else the first one whose packet has arrived (R292, R333). -/
def State.nextBound (s : State) (m : Member) : Option Nat :=
  if s.fixlat then
    match m.due with
    | (t, _) :: _ => if t ≤ s.now then some t else none
    | [] => none
  else m.here.head?

/-- BOUND_UPDATE (R291, R292, R333): the next bound on its way to a member reaches its engine. -/
def execBoundUpdate (die cslot member : Nat) (s : State) : Out :=
  match (tfind? (s.die die).convoys cslot).bind fun v => (tfind? v.members member).map fun m => (v, m) with
  | none => s.noEvent
  | some (v, m) =>
    match (s.nextBound m).bind fun n => m.due.find? fun b => b.1 == n with
    | none => s.noEvent
    | some (n, b) =>
      .next ((s.modMember die cslot m.core m.slot m.uid fun m =>
        { m with due := m.due.eraseP fun b => b.1 == n, here := m.here.drop 1 }).modGroup m.core m.slot fun g =>
          if g.uid = m.uid then
            { g with cv := { g.cv with bound := b, members := v.membersWord member } }
          else g)

/-- UNHITCH_TIMEOUT (R293). -/
def execUnhitchTimeout (core slot : Nat) (s : State) : Out :=
  match s.group? core slot with
  | none => s.noEvent
  | some g =>
    if g.cvDue then .next (s.unhitch core slot 1) else s.noEvent

end Sys2Proof.Machine
end

