-- ==== Sys2Proof/Machine/Boot.lean ====
section
/-!
DEFINITION. Boot, identity and IDE keys (R370, R382, R383).
-/
namespace Sys2Proof.Machine

/-- The stages of a boot in order: each digest that verifies joins the log, and the first that does not
halts the boot (R382). -/
def Trust.bootFrom (t : Trust) : List (List Byte × List Byte) → Trust
  | [] => { t with booted := true }
  | (stage, sig) :: l =>
    let d := Config.sha256 stage
    if Config.firmwareGood d sig then Trust.bootFrom { t with log := t.log ++ [d] } l
    else { t with halted := true }

/-- A function whose queues are disabled (R372, R382). -/
def Fn.disabled (f : Fn) : Fn :=
  { f with queues := f.queues.map fun (kq : Nat × LQueue) => (kq.1, { kq.2 with enable := false }) }

/-- BOOT (R382): at power-on the controller verifies and measures each firmware stage; a halt leaves no VF
enabled. -/
def execBoot (s : State) : Out :=
  if s.trust.booted || s.trust.halted then s.noEvent
  else
    let t := s.trust.bootFrom s.trust.stages
    .next { s with
      trust := t
      fns := if t.halted then s.fns.map fun (kf : Nat × Fn) => (kf.1, if kf.1 = 64 then kf.2 else kf.2.disabled) else s.fns }

/-- SPDM_GET_CERTIFICATE (R383). -/
def execSpdmGetCertificate (s : State) : Out :=
  .next { s with trust := { s.trust with answer := Config.certificate } }

/-- SPDM_GET_MEASUREMENTS (R383): the measurement log, signed with the requester's nonce. -/
def execSpdmGetMeasurements (nonce : Nat) (s : State) : Out :=
  let log := s.trust.log.flatten
  .next { s with trust := { s.trust with
    answers := s.trust.answers + 1
    answer := log ++ Config.identitySign (2 ^ 64 + s.trust.answers) (natLe nonce 32 ++ log) } }

/-- IDE_KM (R370): the selective stream of a function is established or ended. -/
def execIdeKm (vf : Nat) (up : Bool) (s : State) : Out :=
  if 64 < vf then s.noEvent else .next (s.modFn vf fun f => { f with ide := up })

end Sys2Proof.Machine
end

