-- ==== Sys2Proof/Machine/Mtx.lean ====
section
/-!
DEFINITION. The MTX instructions (major 0x19, R259 to R261, R264, R268, R269, R275, R276): what they do
at issue. The engine's own steps stand in Matrix.lean.
-/
namespace Sys2Proof.Machine

/-- Matrix status codes (R275). -/
abbrev msBADFMT : Nat := 1
abbrev msBADPAIR : Nat := 2
abbrev msBADFMTREG : Nat := 3
abbrev msBADSCALE : Nat := 4
abbrev msBADCVM : Nat := 5
abbrev msBADDESC : Nat := 6
abbrev msPLANE : Nat := 7
abbrev msBADDRAIN : Nat := 8
abbrev msBUSY : Nat := 9
abbrev msOFFLINE : Nat := 10

/-- Fields of `fmt` (R86). -/
def fmtAF (w : Word) : Nat := bits w 3 0
def fmtBF (w : Word) : Nat := bits w 7 4
def fmtOUTF (w : Word) : Nat := bits w 11 8
def fmtSCM (w : Word) : Nat := bits w 13 12
def fmtACC (w : Word) : Nat := bits w 15 14

/-- Whether operand A or B is block-scaled (R86). -/
def scaledA (w : Word) : Bool := w.getLsbD 12
def scaledB (w : Word) : Bool := w.getLsbD 13

/-- Fields of a loop descriptor and operand-space block (R261). -/
structure LoopDesc where
  aoff : Nat
  astride : Nat
  m : Nat
  binc : Nat
  ainc : Nat
  ks : Nat
  boff : Nat
  ah : Word
  bh : Word
  asstr : Nat
  asoff : Nat
  bsstr : Nat
  bsoff : Nat
deriving DecidableEq, Repr

/-- The fields that the words of a loop hold; KS = 0 means 256 (R261). -/
def loopDesc (a b : List Word) : LoopDesc :=
  { aoff := bits (wd a 0) 19 0, astride := bits (wd a 1) 31 12, m := bits (wd a 1) 8 0
    binc := bits (wd a 2) 31 20, ainc := bits (wd a 2) 19 8
    ks := if bits (wd a 2) 7 0 = 0 then 256 else bits (wd a 2) 7 0
    boff := bits (wd a 3) 19 0, ah := wd b 0, bh := wd b 1
    asstr := bits (wd b 2) 31 20, asoff := bits (wd b 2) 19 0
    bsstr := bits (wd b 3) 31 20, bsoff := bits (wd b 3) 19 0 }

/-- Fields of a drain descriptor (R268). -/
structure DrainDesc where
  doff : Nat
  dstride : Nat
  rows : Nat
  sostr : Nat
  sooff : Nat
  rndoff : Nat
deriving DecidableEq, Repr

/-- The fields that the words of a drain hold (R268). -/
def drainDesc (a : List Word) : DrainDesc :=
  { doff := bits (wd a 0) 19 0, dstride := bits (wd a 1) 31 12, rows := bits (wd a 1) 8 0
    sostr := bits (wd a 2) 31 20, sooff := bits (wd a 2) 19 0, rndoff := bits (wd a 3) 19 0 }

/-- The CVM field of a format code (R90). -/
def cvmField (cvm : DWord) (code : Nat) : Nat := bits cvm (4 * code + 3) (4 * code)

/-- Scale words of a row in one K-step: 8 of an 8-bit format, 16 of a 4-bit format (R31). -/
def scaleWords (code : Nat) : Nat :=
  match elemFmt code with
  | some f => if f.width = 8 then 8 else 16
  | none => 16

/-- The class of an element format: float or integer (R16). -/
def ElemFmt.isFloat : ElemFmt → Bool
  | .float _ => true
  | .int _ _ => false

/-- Whether the formats of a loop break R19 (R275). -/
def badPair (w : Word) : Bool :=
  match elemFmt (fmtAF w), elemFmt (fmtBF w) with
  | some a, some b =>
    decide (a.width ≠ b.width) || (a.isFloat != b.isFloat) ||
      decide (fmtACC w ≠ if a.isFloat then 0 else 1) ||
      (decide (fmtSCM w ≠ 0) && (decide (8 < a.width) || decide (fmtACC w = 1)))
  | _, _ => true

/-- A loop descriptor field outside its range: the operand it belongs to (R261). -/
def loopBadDesc (a b : List Word) (fmt : Word) (p : Bool) : Option Nat :=
  let d := loopDesc a b
  if bits (wd a 0) 31 20 ≠ 0 ∨ d.aoff % 32 ≠ 0 ∨ d.astride % 32 ≠ 0 ∨ bits (wd a 1) 11 9 ≠ 0 ∨
      d.m = 0 ∨ 256 < d.m then some 0
  else if bits (wd a 3) 31 20 ≠ 0 ∨ d.boff % 256 ≠ 0 ∨
      (p ∧ (d.ks ≠ 1 ∨ d.boff ≠ 0 ∨ d.binc ≠ 0 ∨ d.bh ≠ 0)) then some 1
  else if d.asoff % 4 ≠ 0 ∨ (!scaledA fmt ∧ wd b 2 ≠ 0) then some 0
  else if d.bsoff % 4 ≠ 0 ∨ (!scaledB fmt ∧ wd b 3 ≠ 0) then some 1
  else none

/-- The condition of R275 that a loop shows at issue: code and operand. Of two reserved codes OPND names A, and
it is 3 for BADPAIR (log entry 42). -/
def loopStatus (a b : List Word) (fmt : Word) (p : Bool) : Option (Nat × Nat) :=
  if bits fmt 31 16 ≠ 0 ∨ 2 ≤ fmtACC fmt then some (msBADFMTREG, 3)
  else if (elemFmt (fmtAF fmt)).isNone then some (msBADFMT, 0)
  else if (elemFmt (fmtBF fmt)).isNone then some (msBADFMT, 1)
  else if badPair fmt then some (msBADPAIR, 3)
  else (loopBadDesc a b fmt p).map fun o => (msBADDESC, o)

/-- Width of an output format in bits. -/
def outWidth (code : Nat) : Nat :=
  match elemFmt code with
  | some f => f.width
  | none => 32

/-- The condition of R275 that a drain shows at issue. -/
def drainStatus (a : List Word) (fmt : Word) (cvm : DWord) (bs : Bool) : Option (Nat × Nat) :=
  let d := drainDesc a
  let rs := decide (cvmField cvm (fmtOUTF fmt) % 8 = 4)
  if bits fmt 31 16 ≠ 0 ∨ 2 ≤ fmtACC fmt then some (msBADFMTREG, 3)
  else if (elemFmt (fmtOUTF fmt)).isNone then some (msBADFMT, 2)
  else if 5 ≤ cvmField cvm (fmtOUTF fmt) % 8 then some (msBADCVM, 2)
  else if bs ∧ 8 < outWidth (fmtOUTF fmt) then some (msBADDRAIN, 2)
  else if bits (wd a 0) 31 20 ≠ 0 ∨ d.doff % 4 ≠ 0 ∨ d.dstride % 4 ≠ 0 ∨ bits (wd a 1) 11 9 ≠ 0 ∨
      d.rows = 0 ∨ 256 < d.rows ∨ d.sooff % 4 ≠ 0 ∨ (!bs ∧ wd a 2 ≠ 0) ∨
      bits (wd a 3) 31 20 ≠ 0 ∨ d.rndoff % 2 ≠ 0 ∨ (!rs ∧ d.rndoff ≠ 0) then some (msBADDESC, 2)
  else none

/-- A range that an MTX instruction reads or writes: operand, handle or 0, offset and length (R260). -/
structure MRange where
  opnd : Nat
  h : Word
  off : Nat
  len : Nat
deriving DecidableEq, Repr

/-- The space of a handle, or the block's own allocation for 0 (R260). -/
def spaceOf (h : Word) (cx : Ctx) (s : State) : Loc := locOf (if h = 0 then 0 else 3) h cx s

/-- The range checks of step 4 of R260, row by row as for PUSH (R191). -/
def mtxRanges (s : State) (cx : Ctx) (rs : List MRange) : Option Reject4 :=
  let bounds (own : Bool) (r : MRange) : Option Reject4 :=
    let p := spaceOf r.h cx s
    if decide (r.h = 0) != own then none
    else if !p.valid then some { cause := cHANDLE, opnd := r.opnd, handle := true }
    else if p.limit < r.off + r.len then some { cause := cSPADBOUND, opnd := r.opnd, handle := !own }
    else none
  let sealed (r : MRange) : Option Reject4 :=
    let p := spaceOf r.h cx s
    if (r.opnd = 2 ∨ r.opnd = 6) ∧ s.spadSealed p.home (p.base + r.off) r.len then
      some { cause := cSEALED, opnd := r.opnd, handle := decide (r.h ≠ 0) }
    else none
  (rs.findSome? (bounds true)).or <| (rs.findSome? (bounds false)).or <| rs.findSome? sealed

/-- The ranges of a loop in operand order (R260, R262). -/
def loopRanges (a b : List Word) (fmt : Word) (p : Bool) : List MRange :=
  let d := loopDesc a b
  [{ opnd := 0, h := d.ah, off := d.aoff, len := 256 * d.ainc * (d.ks - 1) + d.astride * (d.m - 1) + 256 }] ++
  (if p then [] else
    [{ opnd := 1, h := d.bh, off := d.boff, len := 256 * d.binc * (d.ks - 1) + 65536 }]) ++
  (if scaledA fmt then
    [{ opnd := 3, h := d.ah, off := d.asoff
       len := 4 * (d.asstr * (d.m - 1) + scaleWords (fmtAF fmt) * d.ks) }] else []) ++
  (if scaledB fmt && !p then
    [{ opnd := 4, h := d.bh, off := d.bsoff
       len := 4 * (d.bsstr * 255 + scaleWords (fmtBF fmt) * d.ks) }] else [])

/-- The ranges of a drain: each output row, the random array and each scale row (R260, R268). -/
def drainRanges (a : List Word) (h : Word) (fmt : Word) (cvm : DWord) (bs : Bool) : List MRange :=
  let d := drainDesc a
  ((rangeFrom 0 d.rows).map fun r =>
    { opnd := 2, h, off := d.doff + d.dstride * r, len := 32 * outWidth (fmtOUTF fmt) }) ++
  (if cvmField cvm (fmtOUTF fmt) % 8 = 4 then
    [{ opnd := 5, h := 0, off := d.rndoff, len := 512 * d.rows }] else []) ++
  (if bs then (rangeFrom 0 d.rows).map fun r =>
    { opnd := 6, h, off := d.sooff + 4 * d.sostr * r, len := 32 } else [])

/-- The lowest free entry of the reservation table (R258). -/
def Cluster.freeSlot (x : Cluster) : Option Nat :=
  leastFrom (fun i => !(x.entries.any fun e => decide (e.slot = i))) 0 16

/-- What an MTX instruction asks of the engine: kind, tile, immediate and words. -/
structure MAsk where
  kind : Nat
  tile : Nat := 0
  imm : Nat := 0
  a : List Word := []
  b : List Word := []

/-- The reservation entry of an MTX instruction (R258, R261). -/
def MAsk.entry (m : MAsk) (cx : Ctx) (num slot now : Nat) : MEntry :=
  { num, slot, kind := m.kind, core := cx.core, gslot := cx.slot, uid := cx.grp.uid
    block := cx.grp.block, buid := cx.blk.uid, launch := cx.blk.launch, gang := cx.blk.gang
    split := cx.sp.id, handler := cx.sp.handler, tile := m.tile, imm := m.imm, fmt := cx.sp.fmt, cvm := cx.grp.cvm
    a := m.a, b := m.b, at_ := now }

/-- An entry accepted into the table; a loop counts in T (R258, R260). -/
def State.enterTable (s : State) (cx : Ctx) (m : MAsk) (slot : Nat) : State :=
  let k := clusterOf cx.core
  let e := m.entry cx (s.cluster k).nextNum slot s.now
  ((s.modCluster k fun x => { x with entries := x.entries ++ [e], nextNum := x.nextNum + 1 }).modG cx
    fun g => if m.kind = 2 then { g with cmds := { g.cmds with t := g.cmds.t + 1 } } else g).expose
    cx.core cx.grp.block

/-- The issue of an MTX instruction other than MSTAT (R260): `status` is the condition it shows and
`ranges` what it will access. An MDRAIN then waits for its entry (R268). -/
def mtxIssue (s : State) (f : FmtE) (i : Instr) (cx : Ctx) (m : MAsk) (status : Option (Nat × Nat))
    (ranges : List MRange) : Out :=
  let x := s.cluster (clusterOf cx.core)
  if !cx.anyLaunched then s.advance cx f.lx
  else if cx.grp.q.stores ≠ [] then s.heldAt
  else if x.offline then s.trap cx cMATRIXCHK 0xFF
  else
    match status, x.freeSlot with
    | some _, none => s.waitIn cx i .none
    | some (code, opnd), some slot =>
      ((s.modG cx fun g => { g with mstat := mstatReport g.mstat slot m.tile opnd code }).expose
        cx.core cx.grp.block).advance cx f.lx
    | none, free =>
      match mtxRanges s cx ranges, free with
      | some r, _ => s.trap cx r.cause (r.info 0xFF)
      | none, none => s.waitIn cx i .none
      | none, some slot =>
        let s1 := s.enterTable cx m slot
        if m.kind = 3 then s1.waitIn cx i (.drain x.nextNum) else s1.advance cx f.lx

/-- MLOADW (R264). -/
def execMloadw (f : FmtE) (s : State) : Out :=
  s.issue fun cx =>
    let off := cx.s f.sa.toNat
    let h := cx.s f.sb.toNat
    mtxIssue s f (.mloadw f) cx { kind := 0, a := [off], b := [h] }
      (if off.toNat % 256 ≠ 0 then some (msBADDESC, 1) else none)
      [{ opnd := 1, h, off := off.toNat, len := 65536 }]

/-- MSWAP (R264). -/
def execMswap (f : FmtE) (s : State) : Out :=
  s.issue fun cx => mtxIssue s f (.mswap f) cx { kind := 1 } none []

/-- MLOOP (R261). -/
def execMloop (f : FmtE) (s : State) : Out :=
  s.issue fun cx =>
    let a := (rangeFrom f.sa.toNat 4).map cx.s
    let b := (rangeFrom f.sb.toNat 4).map cx.s
    let p := f.imm16.getLsbD 5
    mtxIssue s f (.mloop f) cx
      { kind := 2, tile := bits f.imm16 1 0, imm := f.imm16.toNat, a, b }
      (loopStatus a b cx.sp.fmt p) (loopRanges a b cx.sp.fmt p)

/-- MDRAIN (R268): waits until its entry has completed. -/
def execMdrain (f : FmtE) (s : State) : Out :=
  s.issue fun cx =>
    match cx.sp.await with
    | .drain n => s.waitIn cx (.mdrain f) (.drain n)
    | .drained => s.advance cx f.lx
    | _ =>
      let a := (rangeFrom f.sa.toNat 4).map cx.s
      let h := cx.s f.sb.toNat
      let bs := f.imm16.getLsbD 2
      mtxIssue s f (.mdrain f) cx
        { kind := 3, tile := bits f.imm16 1 0, imm := f.imm16.toNat, a, b := [h] }
        (drainStatus a cx.sp.fmt cx.grp.cvm bs) (drainRanges a h cx.sp.fmt cx.grp.cvm bs)

/-- MZERO (R269). -/
def execMzero (f : FmtE) (s : State) : Out :=
  s.issue fun cx =>
    mtxIssue s f (.mzero f) cx { kind := 4, tile := bits f.imm16 1 0 } none []

/-- The engine state word (R276). -/
def Cluster.stateWord (x : Cluster) : Word :=
  BitVec.ofNat 32 (x.offline.toNat * 2 ^ 31 + x.chkpause.toNat * 2 ^ 30 + x.mapped.toNat * 2 ^ 29 +
    x.sparebad.toNat * 2 ^ 28 + (if x.mapped then x.maprow * 2 ^ 16 else 0) +
    x.entries.length * 256 + x.passes % 128)

/-- The named-cell word (R276). -/
def Cluster.namedWord (x : Cluster) : Word :=
  BitVec.ofNat 32 (Nat.min 255 x.names * 2 ^ 24 + x.nameValid.toNat * 2 ^ 23 +
    x.nameSpare.toNat * 2 ^ 16 + x.nameCol * 256 + if x.nameSpare then 0 else x.nameRow)

/-- MSTAT (R276); without a launched lane it has no effect (R260). -/
def execMstat (f : FmtE) (s : State) : Out :=
  s.issue fun cx =>
    let x := s.cluster (clusterOf cx.core)
    let w := match f.imm16.toNat with
      | 2 => x.stateWord
      | 3 => x.namedWord
      | _ => cx.grp.mstat
    if !cx.anyLaunched then s.advance cx f.lx
    else
      ((if f.imm16 = 1 then s.modG cx fun g => { g with mstat := 0 } else s).setS cx f.sd.toNat w).advance
        cx f.lx

/-- Whether a matrix entry names a handle (R248). -/
def MEntry.names (e : MEntry) (h : Word) : Bool :=
  match e.kind with
  | 0 => e.b.getD 0 0 == h
  | 2 => e.b.getD 0 0 == h || e.b.getD 1 0 == h
  | 3 => e.b.getD 0 0 == h
  | _ => false

end Sys2Proof.Machine
end

