-- ==== Sys2Proof/Machine/Clu.lean ====
section
/-!
DEFINITION. The CLU instructions (major 0x18, R244 to R254).
-/
namespace Sys2Proof.Machine

/-- TRAPINFO of a HANDLE trap of a CLU instruction (R254). -/
def handleInfo (reason : Nat) : Word := BitVec.ofNat 32 (127 + 512 + reason * 2 ^ 24)

/-- The buffer entry that a handle of a core's cluster names, changed (R244). -/
def State.modBuf (s : State) (c : Nat) (h : Word) (f : Buf → Buf) : State :=
  s.modCore (handleHome c h) fun x =>
    { x with bufs := tset {} x.bufs (handleIdx h) (f (tget {} x.bufs (handleIdx h))) }

/-- A handle whose entry still waits in a queue; others have gone stale there (R247). -/
def State.queuedOk (s : State) (c : Nat) (h : Word) : Bool :=
  let e := s.handleBuf c h
  decide (e.gen = bits h 31 20 ∧ e.state = 2)

/-- The handles that wait in queue `q` of a block (R246). -/
def State.queueOf (s : State) (c : Nat) (k : Block) (q : Nat) : List Word :=
  (tget [] k.hq q).filter (s.queuedOk c)

/-- How many handles wait in queue `q` of the block number `uid` (R244, R246). -/
def State.inQueue (s : State) (uid q : Nat) : Nat :=
  (s.cores.map fun kc => (kc.2.bufs.filter fun e => decide (e.2.state = 2 ∧ e.2.buid = uid ∧ e.2.hq = q)).length).sum

/-- Where block `n` of a gang is: resident at a core and slot, context-saved from a core, or ended. -/
inductive Whereabouts where
  | here (core slot : Nat) (k : Block)
  | saved (core : Nat) (v : Saved)
  | gone

/-- A block of that launch and gang with that BLOCKID. -/
def Block.isMember (k : Block) (launch gang n : Nat) : Bool :=
  decide (k.launch = launch ∧ k.gang = gang ∧ k.blockId = n) && k.task.isNone && !k.amsg

/-- Where block `n` of the issuing gang is, in its cluster or, after a restore, in another (R236, R250); the block
of a task or of a message handler is a gang of its own (R209, R230). -/
def State.gangBlock (s : State) (cx : Ctx) (n : Nat) : Whereabouts :=
  let mine (k : Block) : Bool := k.isMember cx.blk.launch cx.blk.gang n && !k.ended
  if cx.blk.task.isSome || cx.blk.amsg then .here cx.core cx.grp.block cx.blk
  else
    match s.cores.findSome? fun kc => (kc.2.blocks.find? fun kb => mine kb.2).map fun kb => (kc.1, kb.1, kb.2) with
    | some (c, b, k) => .here c b k
    | none =>
      match s.cores.findSome? fun kc => (kc.2.saved.find? fun v => mine v.block).map fun v => (kc.1, v) with
      | some (c, v) => .saved c v
      | none => .gone

/-- Whether HGIVE or HDROP must still wait for its handle (R248). -/
def giveBusy (s : State) (cx : Ctx) (h : Word) (stores : Nat) : Bool :=
  let x := s.core cx.core
  (x.groups.any fun kg => decide (kg.2.block = cx.grp.block) &&
    kg.2.q.stores.any fun o => decide (o.handle = some h)) ||
  ((x.blockCmds cx.grp.block).any fun m => m.names h) ||
  ((s.cluster (clusterOf cx.core)).entries.any fun e =>
    decide (e.core = cx.core ∧ e.buid = cx.blk.uid ∧ ¬(e.kind = 2 ∧ e.state = 2)) && e.names h) ||
  decide (cx.grp.q.stOut < stores)

/-- Whether an HGIVE of the issuing group that issued before number `n` still waits to give to the same
queue: handles of one group enter in issue order (R246; log entry 40). -/
def giveBefore (cx : Ctx) (blk q n : Nat) : Bool :=
  cx.grp.splits.any fun p => decide (p.eff = 3) && match p.await with
    | .give _ _ m b r => decide (m < n ∧ b = blk ∧ r = q)
    | _ => false

/-- A buffer entry that waits in queue `q` of the block number `uid` in slot `b` of core `c` (R244). -/
def Buf.queued (e : Buf) (c b q uid : Nat) : Buf :=
  { e with state := 2, hq := q, hcore := coreNo c, hblk := b, buid := uid }

/-- A handle appended to a queue of a block (R246). -/
def Block.enqueue (k : Block) (q : Nat) (h : Word) : Block :=
  { k with hq := tset [] k.hq q (tget [] k.hq q ++ [h]) }

/-- The same for a saved block, which must now return to the core and slot that it left (R247, R277). -/
def Saved.enqueue (v : Saved) (q : Nat) (h : Word) : Saved :=
  { v with block := { v.block.enqueue q h with pinSlot := true }, late := v.late || !v.block.pinSlot }

/-- The handle, still valid, enters queue `q` of block `blk` of the gang, resident or saved; it waits while
the queue is full, and is freed when the block has ended (R247, R250, R277). -/
def giveTo (f : FmtE) (i : Instr) (h : Word) (stores num : Nat) (s : State) (cx : Ctx) : Out :=
  let q := f.ch.toNat
  let n := f.imm16.toNat % 4
  let wait := s.waitIn cx i (.give h stores num n q)
  let done (t : State) : Out := (t.expose cx.core cx.grp.block).advance cx f.lx
  match s.gangBlock cx n with
  | .gone => done (s.modBuf cx.core h Buf.freed)
  | .here c b k =>
    if 16 ≤ s.inQueue k.uid q then wait
    else done ((s.modBuf cx.core h fun e => e.queued c b q k.uid).modBlock c b fun k => k.enqueue q h)
  | .saved c v =>
    if 16 ≤ s.inQueue v.block.uid q then wait
    else done ((s.modBuf cx.core h fun e => e.queued c v.slot q v.block.uid).modCore c fun x =>
      { x with saved := x.saved.map fun w => if w = v then v.enqueue q h else w })

/-- An HGIVE numbered `num` of a handle: it fails when the handle is no longer valid, waits as R246 and, for
`own`, R248 give, and gives (R250). -/
def giveNow (f : FmtE) (i : Instr) (own : Bool) (h : Word) (stores num : Nat) (s : State) (cx : Ctx) : Out :=
  let r := s.handleReason cx.core cx.grp.block h
  if r ≠ 0 then s.trap cx cHANDLE (handleInfo r)
  else if giveBefore cx (f.imm16.toNat % 4) f.ch.toNat num || (own && giveBusy s cx h stores) then
    s.waitIn cx i (.give h stores num (f.imm16.toNat % 4) f.ch.toNat)
  else giveTo f i h stores num s cx

/-- HGIVE of an existing handle (R250). -/
def execHgive (f : FmtE) (s : State) : Out :=
  s.issue fun cx =>
    match cx.sp.await with
    | .give h stores num _ _ => giveNow f (.hgive f) true h stores num s cx
    | _ =>
      let h := cx.s f.sa.toNat
      let r := s.handleReason cx.core cx.grp.block h
      if !cx.anyLaunched then s.advance cx f.lx
      else if r ≠ 0 then s.trap cx cHANDLE (handleInfo r)
      else if cx.blk.gangSize ≤ f.imm16.toNat % 4 then s.trap cx cHANDLE (handleInfo 4)
      else giveNow f (.hgive f) true h cx.grp.q.stIn s.uidSeq { s with uidSeq := s.uidSeq + 1 } cx

/-- A new handle (R245). -/
def newHandle (gen core idx : Nat) : Word :=
  BitVec.ofNat 32 (gen * 2 ^ 20 + coreNo core * 2 ^ 18 + idx * 2 ^ 10)

/-- HGIVE in its make form (R250). -/
def execHgiveMake (f : FmtE) (s : State) : Out :=
  s.issue fun cx =>
    match cx.sp.await with
    | .give h stores num _ _ => giveNow f (.hgiveMake f) false h stores num s cx
    | _ =>
      let base := (cx.s f.sa.toNat).toNat
      let len := (cx.s f.sb.toNat).toNat
      if !cx.anyLaunched then (s.setS cx f.sd.toNat 0).advance cx f.lx
      else if base % 32 ≠ 0 ∨ len % 32 ≠ 0 ∨ len = 0 ∨ cx.blk.usable < base + len then
        s.trap cx cSPADBOUND 127
      else
        match leastFrom (fun i => (tget {} (s.core cx.core).bufs i).state == 0) 0 256 with
        | none => (s.setS cx f.sd.toNat 0).advance cx f.lx
        | some i =>
          if cx.blk.gangSize ≤ f.imm16.toNat % 4 then s.trap cx cHANDLE (handleInfo 4)
          else
            let h := newHandle (tget {} (s.core cx.core).bufs i).gen cx.core i
            let s1 := (s.modBuf cx.core h fun e =>
              { e with state := 1, hcore := coreNo cx.core, hblk := cx.grp.block, home := cx.grp.block
                       len32 := len / 32, base := cx.blk.base + base }).setS cx f.sd.toNat h
            giveNow f (.hgiveMake f) false h 0 s.uidSeq { s1 with uidSeq := s1.uidSeq + 1 } cx

/-- The number of an HTAKE's arrival at its queue: kept while it waits (R251). -/
def Await.arrival (a : Await) (now : Nat) : Nat :=
  match a with
  | .take _ n => n
  | _ => now

/-- How many HTAKEs of the issuing block reached the queue before arrival `n` and wait there still: the
oldest handles are theirs (R251; log entry 68). -/
def takersBefore (s : State) (cx : Ctx) (q n : Nat) : Nat :=
  (((s.core cx.core).groups.filter fun kg => decide (kg.2.block = cx.grp.block)).map fun kg =>
    (kg.2.splits.filter fun p => decide (p.wait = 3) && match p.await with
      | .take r m => decide (r = q ∧ m < n)
      | _ => false).length).sum

/-- The oldest handle of a queue after the first `k` taken by the issuing block (R251). -/
def takeFrom (f : FmtE) (s : State) (cx : Ctx) (k : Nat) : Option State :=
  let q := f.ch.toNat
  let l := s.queueOf cx.core cx.blk q
  match l[k]? with
  | none => none
  | some h =>
    let rest := l.eraseIdx k
    some ((((s.modBuf cx.core h fun e =>
      { e with state := 1, hq := 0, hcore := coreNo cx.core, hblk := cx.grp.block, buid := 0 }).modB cx fun k =>
        { k with hq := tset [] k.hq q rest }).expose cx.core cx.grp.block).setS cx f.sd.toNat h)

/-- HTAKE (R251): waits while the queue is empty; the HTAKEs that wait take in the order in which they
came. -/
def execHtake (f : FmtE) (s : State) : Out :=
  s.issue fun cx =>
    let q := f.ch.toNat
    let n := cx.sp.await.arrival s.uidSeq
    match takeFrom f s cx (takersBefore s cx q n) with
    | some t => t.advance cx f.lx
    | none =>
      match cx.sp.await with
      | .take r m => s.waitIn cx (.htake f) (.take r m)
      | _ => { s with uidSeq := s.uidSeq + 1 }.waitIn cx (.htake f) (.take q s.uidSeq)

/-- HTAKET (R251): writes 0 when the queue is empty. -/
def execHtaket (f : FmtE) (s : State) : Out :=
  s.issue fun cx =>
    match takeFrom f s cx (takersBefore s cx f.ch.toNat s.uidSeq) with
    | some t => t.advance cx f.lx
    | none => (s.setS cx f.sd.toNat 0).advance cx f.lx

/-- BLOCKID of the block at a slot of a core, resident or saved. -/
def State.blockIdAt (s : State) (c b : Nat) : Nat :=
  match s.block? c b with
  | some k => k.blockId
  | none =>
    match (s.core c).saved.find? fun v => v.slot == b && v.block.pinSlot && !v.late with
    | some v => v.block.blockId
    | none => 0

/-- BLOCKID of the block of a number, resident or saved. -/
def State.blockIdOf (s : State) (uid : Nat) : Nat :=
  (s.cores.findSome? fun kc =>
    ((kc.2.blocks.find? fun kb => kb.2.uid == uid).map (·.2.blockId)).or
      ((kc.2.saved.find? fun v => v.block.uid == uid).map (·.block.blockId))).getD 0

/-- The handle status word (R252). -/
def State.handleWord (s : State) (cx : Ctx) (h : Word) : Word :=
  let e := s.handleBuf cx.core h
  let c := clusterOf cx.core * 4 + e.hcore
  if bits h 9 0 ≠ 0 ∨ e.gen ≠ bits h 31 20 ∨ e.state = 0 then 0
  else if e.state = 2 then
    BitVec.ofNat 32 (3 * 2 ^ 26 + s.blockIdOf e.buid * 2 ^ 24 + e.len32)
  else if c = cx.core ∧ e.hblk = cx.grp.block then BitVec.ofNat 32 (2 ^ 26 + e.len32)
  else BitVec.ofNat 32 (2 * 2 ^ 26 + s.blockIdAt c e.hblk * 2 ^ 24 + e.len32)

/-- HSTAT (R252). -/
def execHstat (f : FmtE) (s : State) : Out :=
  s.issue fun cx => (s.setS cx f.sd.toNat (s.handleWord cx (cx.s f.sa.toNat))).advance cx f.lx

/-- An HDROP of a handle: it fails when the handle is no longer valid, waits as R248 gives, and frees the
buffer (R253). -/
def dropNow (f : FmtE) (h : Word) (stores : Nat) (s : State) (cx : Ctx) : Out :=
  let r := s.handleReason cx.core cx.grp.block h
  if r ≠ 0 then s.trap cx cHANDLE (handleInfo r)
  else if giveBusy s cx h stores then s.waitIn cx (.hdrop f) (.drop h stores)
  else ((s.modBuf cx.core h Buf.freed).expose cx.core cx.grp.block).advance cx f.lx

/-- HDROP (R248, R253). -/
def execHdrop (f : FmtE) (s : State) : Out :=
  s.issue fun cx =>
    match cx.sp.await with
    | .drop h stores => dropNow f h stores s cx
    | _ => dropNow f (cx.s f.sa.toNat) cx.grp.q.stIn s cx

end Sys2Proof.Machine
end

