-- ==== Sys2Proof/Machine/Ctl.lean ====
section
/-!
DEFINITION. The CTL instructions (major 0x02, R134 to R139, R154 to R157).
-/
namespace Sys2Proof.Machine

/-- A branch taken or not by a condition of the split (R134). -/
def branchIf (f : FmtB) (s : State) (cond : Ctx → Bool) : Out :=
  s.issue fun cx => s.goTo cx (if cond cx then f.target cx else cx.sp.nextPc 0)

/-- BRA (R134). -/
def execBra (f : FmtB) (s : State) : Out := branchIf f s fun _ => true

/-- BSC (R134): taken if (s[SA] ≠ 0) XOR NEG. -/
def execBsc (f : FmtB) (s : State) : Out :=
  branchIf f s fun cx => decide (cx.s f.sa.toNat ≠ 0) != (f.neg == 1)

/-- BSZ (R134): taken if ((exec AND k[KC]) = 0) XOR NEG. -/
def execBsz (f : FmtB) (s : State) : Out :=
  branchIf f s fun cx => decide (cx.sp.exec &&& cx.k f.kc.toNat = 0) != (f.neg == 1)

/-- BDIV (R135): the active lanes divide into a taken and a fall-through path, or the split branches
whole. -/
def execBdiv (f : FmtB) (s : State) : Out :=
  s.issue fun cx =>
    let t := cx.sp.exec &&& f.mask cx
    let n := cx.sp.exec &&& ~~~f.mask cx
    let next := cx.sp.nextPc 0
    if t = 0 then s.goTo cx next
    else if n = 0 then s.goTo cx (f.target cx)
    else if f.hint = 1 then s.divide cx t (f.target cx) [(n, next)]
    else s.divide cx n next [(t, f.target cx)]

/-- The target of lane `l` at BDIVX before alignment (R136). -/
def divxTarget (f : FmtB) (cx : Ctx) (l : Nat) : DWord :=
  addr56 ((f.target cx).toNat + (cx.v f.sa.toNat l).toNat)

/-- The target that lane `l` takes: a misaligned helper takes that of the lowest active non-helper
lane, or falls through (R136). -/
def divxOf (f : FmtB) (cx : Ctx) (l : Nat) : DWord :=
  let t := divxTarget f cx l
  if t.toNat % 8 = 0 then t
  else
    match lowestLane (cx.sp.exec &&& ~~~cx.helpers) with
    | some q => divxTarget f cx q
    | none => cx.sp.nextPc 0

/-- The active lanes grouped by target, in increasing order of their lowest lane (R136). -/
def divxGroups (f : FmtB) (cx : Ctx) : List (LaneMask × DWord) :=
  (lanesOf cx.sp.exec).foldl (fun gs l =>
    let t := divxOf f cx l
    if gs.any fun g => decide (g.2 = t) then
      gs.map fun g => if g.2 = t then (g.1 ||| (1#96 <<< l), g.2) else g
    else gs ++ [((1#96 <<< l), t)]) []

/-- BDIVX (R136): the active lanes divide by their targets. -/
def execBdivx (f : FmtB) (s : State) : Out :=
  s.issue fun cx =>
    match (lanesOf (cx.sp.exec &&& ~~~cx.helpers)).find? fun l =>
        decide ((divxTarget f cx l).toNat % 8 ≠ 0) with
    | some l => s.trap cx cALIGN (BitVec.ofNat 32 l)
    | none =>
      match divxGroups f cx with
      | [] => s.goTo cx (cx.sp.nextPc 0)
      | [g] => s.goTo cx g.2
      | g :: news => s.divide cx g.1 g.2 news

/-- CALL (R134): the next word's address to the pair s[SA], s[SA+1], and the branch. -/
def execCall (f : FmtB) (s : State) : Out :=
  s.issue fun cx => (s.setSPair cx f.sa.toNat (cx.sp.nextPc 0)).goTo cx (f.target cx)

/-- A branch to the address in s[SA+1]:s[SA]; a misaligned or too high target traps ALIGN (R137). -/
def jumpPair (f : FmtB) (s : State) : Out :=
  s.issue fun cx =>
    let t := cx.spair f.sa.toNat
    if t.toNat % 8 ≠ 0 ∨ 2 ^ 56 ≤ t.toNat then s.trap cx cALIGN 127 else s.goTo cx t

/-- RET (R137). -/
def execRet (f : FmtB) (s : State) : Out := jumpPair f s

/-- JMPI (R137). -/
def execJmpi (f : FmtB) (s : State) : Out := jumpPair f s

/-- RJSET (R155): arms a rejoin register, after a partial release when it has waiters. -/
def execRjset (f : FmtB) (s : State) : Out :=
  s.issue fun cx =>
    let n := f.jr.toNat
    let r := tget {} cx.grp.j n
    if r.state = 2 then s.waitIn cx (.rjset f) .none
    else if r.state = 1 ∧ cx.grp.waiters n ≠ [] then
      (s.modG cx fun g =>
        { g with j := tset {} g.j n { r with state := 2, start := s.now, partialRel := true } }).waitIn
        cx (.rjset f) .none
    else
      (((s.modG cx fun g =>
          { g with j := tset {} g.j n { state := 1, sfmt := cx.sp.fmt, expected := cx.sp.exec } }).modSplit
          cx fun p => { p with wait := 0 }).modG cx fun g => g.evaluate s.now).goTo cx (cx.sp.nextPc 0)

/-- RJOIN (R156): arrives at a rejoin register and waits there; at an idle one it goes on and sets
STAT.JLOST. -/
def execRjoin (f : FmtB) (s : State) : Out :=
  s.issue fun cx =>
    let n := f.jr.toNat
    let r := tget {} cx.grp.j n
    if r.state = 2 then s.waitIn cx (.rjoin f) .none
    else if r.state = 0 then
      ((s.setStat cx.core cx.slot statJLOST).modG cx fun g => g.evaluate s.now).goTo cx (cx.sp.nextPc 0)
    else
      let s1 := s.modG cx fun g =>
        { g with j := tset {} g.j n { r with arrived := r.arrived ||| cx.sp.exec } }
      let s2 := s1.modSplit cx fun p =>
        { p with wait := 1, wj := n, pc := cx.sp.nextPc 0, await := .none, waitI := none }
      .next { s2.settle cx.core cx.slot with mark := .waiting }

/-- RJPEEK (R134, R157): 32 bits of ARRIVED, as it stood before the packet. -/
def execRjpeek (f : FmtB) (s : State) : Out :=
  s.issue fun cx =>
    let r := tget {} cx.grp.j f.jr.toNat
    (s.setS cx f.sa.toNat (r.arrived.extractLsb' (32 * f.imm10.toNat) 32)).goTo cx (cx.sp.nextPc 0)

/-- BAR (R138, R163): the split waits; when every live split has arrived they merge. In a handler it
is DOUBLE (R166). -/
def execBar (_f : FmtB) (s : State) : Out :=
  s.issue fun cx =>
    if cx.sp.handler then
      .next { s.double cx.core cx.slot cx.sp.pc 0xFF with mark := .trapped }
    else
      let s1 := s.modSplit cx fun p =>
        { p with wait := 2, pc := cx.sp.nextPc 0, await := .none, waitI := none }
      .next { s1.arrive cx.core cx.slot with mark := .waiting }

/-- EXIT (R139, R165): the lanes of the split's domain end; the last EXIT, or one of a handler, ends
the group. -/
def execExit (_f : FmtB) (s : State) : Out :=
  s.issue fun cx =>
    if cx.sp.handler || decide (cx.grp.running.length ≤ 1) then
      .next { s.endGroup cx.core cx.slot with mark := .done }
    else
      let s1 := s.modG cx fun g =>
        (({ g with splits := g.splits.filter fun p => !g.issues cx.sp.id p } : Group).clearResv cx.sp.domain).orphan
      .next { s1.arrive cx.core cx.slot with mark := .done }

/-- BARRIER_RELEASE needs each command that writes its block's own allocation complete (R214): the
destination of the command is a local address, a buffer of the block itself, or an ATOM result. -/
def Cmd.writesOwn (m : Cmd) (x : Core) (b : Nat) (coreIdx : Nat) : Bool :=
  let w5 := m.w.getD 5 0
  let w4 := m.w.getD 4 0
  let op := bits (m.w.getD 0 0) 7 0
  let tag := bits w5 31 30
  if op = 6 then true
  else if op = 10 ∨ op = 11 ∨ op = 12 then false
  else if tag = 2 then true
  else if tag = 3 then
    let h : Word := BitVec.ofNat 32 ((w5.toNat % 2 ^ 20) * 4096 + w4.toNat / 2 ^ 20)
    decide (handleHome coreIdx h = coreIdx) && decide ((tget {} x.bufs (handleIdx h)).home = b)
  else false

/-- BARRIER_RELEASE (R214): every group that has not ended has arrived and its loads have performed, no store is
queued and no command writes the allocation; the splits become ready, a new interval opens and ranks are taken. A
dormant one takes an entry that is free (R146, R153). -/
def execBarrierRelease (core block : Nat) (s : State) : Out :=
  let x := s.core core
  let gs := x.groups.filter fun kg => decide (kg.2.block = block) && !kg.2.ended
  let ready := !gs.isEmpty && (gs.all fun kg => kg.2.arrived && kg.2.q.stores.isEmpty && kg.2.q.loads.isEmpty) &&
    (x.groups.all fun kg => decide (kg.2.block ≠ block) || kg.2.q.stores.isEmpty) &&
    !(x.cmds.any fun m => decide (m.block = block) && m.writesOwn x block core) &&
    !(x.blocks.any fun kb => decide (kb.1 = block) && kb.2.rolling.isSome)
  if ready then
    let s1 := gs.foldl (fun t kg => t.modGroup core kg.1 fun y =>
      { y with splits := y.splits.map fun p => { (p.setEff 0) with idle := 0, readyAt := s.now + 1 } }) s
    let s2 := (s1.openInterval core block).rankBlock core block
    .next ((gs.foldl (fun t kg => t.journalPads core kg.1) s2).moveIn core 62)
  else s.noEvent

end Sys2Proof.Machine
end

