-- ==== Sys2Proof/Machine/Debug.lean ====
section
/-!
DEFINITION. The debugger (R168, R389): claims, releases, steps and moves. A step is issued by the core's
issue decision (Issue.lean) and ended by State.stepOver.
-/
namespace Sys2Proof.Machine

/-- Every split of a group held (R168). -/
def State.holdAll (s : State) (c g : Nat) : State :=
  (s.modGroup c g fun y => { y with splits := y.splits.map Split.hold }).journalPads c g

/-- The held group of a core: its slot, when it still stands (R389). -/
def State.held? (s : State) (c : Nat) : Option (Nat × Group) :=
  match (s.core c).dbgHeld with
  | none => none
  | some g =>
    match s.group? c g with
    | none => none
    | some y => if y.claimed && !y.ended then some (g, y) else none

/-- GSLOT of DBGCTL stored (R389). -/
def State.storeGslot (s : State) (core value : Nat) : State :=
  s.modCore core fun x => { x with dbgctl := BitVec.ofNat 32 (value % 16) }

/-- A write of DBGCTL that neither claims nor releases stores GSLOT (R389). -/
def State.plainDbgctl (s : State) (core value : Nat) : Out :=
  if value / 2 ^ 29 % 4 = 0 then .next (s.storeGslot core value) else s.noEvent

/-- DBG_CLAIM (R168, R389): bit 30 of DBGCTL claims the group in slot [3:0]; a claim while a group is held is
ignored, and one of a slot that holds none changes GSLOT alone. -/
def execDbgClaim (core value : Nat) (s : State) : Out :=
  let slot := value % 16
  if value / 2 ^ 30 % 2 = 0 then s.plainDbgctl core value
  else if (s.core core).dbgHeld.isSome then .next s
  else
    match s.group? core slot with
    | none => .next (s.storeGslot core value)
    | some g =>
      if g.ended then .next (s.storeGslot core value)
      else
        .next (((s.holdAll core slot).modGroup core slot fun g => { g with claimed := true }).modCore core
          fun x => { x with dbgHeld := some slot, dbgctl := BitVec.ofNat 32 slot })

/-- DBG_RELEASE (R168, R389): bit 29 of DBGCTL releases the claimed group; each split takes back its WAIT, and the rejoin registers are evaluated, since
lanes held until now may no longer arrive (R158, log entry 57). -/
def execDbgRelease (core value : Nat) (s : State) : Out :=
  if value / 2 ^ 29 % 2 = 0 then s.plainDbgctl core value
  else
    let s0 := s.storeGslot core value
    match (s.core core).dbgHeld with
    | none => .next s0
    | some g =>
      let s1 := if (s.held? core).isSome then
          (s0.modGroup core g fun y =>
            { y with splits := y.splits.map fun p => { p.letGo with readyAt := s.now + 1 }, claimed := false }).settle
              core g
        else s0
      .next ((s1.modCore core fun x => { x with dbgHeld := none, steps := [] }).moveIn core 62)

/-- DBGCMD at the end of an operation (R389). -/
def State.dbgEnd (s : State) (c value res : Nat) : State :=
  s.modCore c fun x =>
    { x with dbgcmd := (BitVec.ofNat 32 value &&& 0x7000007F) ||| BitVec.ofNat 32 (res * 2 ^ 24), steps := [] }

/-- DBGCMD while a step runs. -/
def State.dbgBegin (s : State) (c value : Nat) (ids : List Nat) : State :=
  s.modCore c fun x => { x with dbgcmd := BitVec.ofNat 32 value &&& 0xF000007F, steps := ids }

/-- A split of a group that lives now: a handler's while a trap is in progress (R165). -/
def Group.live? (g : Group) (id : Nat) : Option Split := g.running.find? fun p => decide (p.id = id)

/-- The split that SPLIT names: 127 means the lowest id (R389). -/
def Group.named? (g : Group) (value : Nat) : Option Split :=
  if value % 128 = 127 then
    (if g.running = [] then none else some (lowestId g.running))
  else g.live? (value % 128)

/-- A write of DBGCMD with an operation: ignored while GO reads 1; without GO it is kept. An operation that the
table does not list does nothing and has ended at once (R389, log entry 57). -/
def State.dbgWrite (s : State) (c value op : Nat) (f : Nat → Group → State) : Out :=
  if (s.core c).dbgcmd.getLsbD 31 then .next s
  else if value / 2 ^ 31 % 2 = 0 then .next (s.dbgEnd c value (bits (s.core c).dbgcmd 27 24))
  else
    let n := value / 2 ^ 28 % 8
    let none? := decide (n = 0 ∨ 4 ≤ n)
    if n ≠ op ∧ none? = false then s.noEvent
    else
      match (s.core c).dbgHeld, s.held? c with
      | none, _ => .next (s.dbgEnd c value 1)
      | some _, none => .next (s.dbgEnd c value 3)
      | some _, some (g, y) => .next (if none? = true then s.dbgEnd c value 0 else f g y)

/-- The paddock entry that a resident split of a group would take if the split `p` of group `g` left its own: that
of `p` in its own block, or the lowest free one (R146). -/
def State.padFor (s : State) (c : Nat) (z y : Group) (p : Split) : Option Nat :=
  (s.block? c z.block).bind fun k =>
    let free := leastFrom (fun i => !((s.core c).padUsed z.block).contains i) 64 k.padN
    if z.block = y.block then some (free.getD p.place) else free

/-- A dormant split brought into the table: into the lowest free entry, else in the place of its group's
oldest split in entries 0 to 61, else in that of the oldest split of the core there that finds an entry in its
own block's paddock, the one that the named split leaves among them (R146, R389, log entry 57). Where there is
none, it waits for an entry to free. -/
def State.bringIn (s : State) (c g : Nat) (y : Group) (p : Split) : State :=
  if p.place < 64 then s
  else
    match (s.core c).freePlace 0 62 with
    | some e => (s.modGroup c g fun y => y.setPlace p.id p.handler e s.now).journalPads c g
    | none =>
      match y.oldestOf g (s.cycle c) (fun q => decide (q.place < 62)) with
      | some q => s.exchange c g q p
      | none =>
        match (s.core c).oldest (s.cycle c) (fun slot q => decide (q.place < 62) &&
            (s.group? c slot).any fun z => (s.padFor c z y p).isSome) with
        | none => s
        | some (slot, q) =>
          match (s.group? c slot).bind fun z => s.padFor c z y p with
          | none => s
          | some pad => (((s.modGroup c slot fun z => z.setPlace q.id q.handler pad s.now).modGroup c g fun z =>
              z.setPlace p.id p.handler q.place s.now).journalPads c slot).journalPads c g

/-- The split whose step of a claimed group comes next brought into the table, when it is dormant (R140,
R146, R168). -/
def State.readyStep (s : State) (c slot : Nat) : State :=
  match s.group? c slot, (s.core c).steps with
  | some g, id :: _ =>
    match g.live? id with
    | some p => s.bringIn c slot g p
    | none => s
  | _, _ => s

/-- A step has ended: every split is held again, and the debugger is told of a STEP of split `id`
(R168, R389). -/
def State.stepOver (s : State) (c g id : Nat) : State :=
  let pc := match s.group? c g with
    | none => 0
    | some y => match y.live? id with
      | none => (lowestId y.running).pc
      | some p => p.pc
  let s1 := (s.holdAll c g).dbgStop c g id cSTEP pc
  s1.modCore c fun x => { x with dbgcmd := x.dbgcmd &&& 0x7000007F, steps := [] }

/-- DBG_STEP_ONE (R168, R389): the named split, a dormant one moved into the table first, is to issue one
packet of its own; a split that waits counts as stepped. -/
def execDbgStepOne (core value : Nat) (s : State) : Out :=
  s.dbgWrite core value 1 fun g y =>
    match y.named? value with
    | none => s.dbgEnd core value 2
    | some p =>
      let s1 := (s.bringIn core g y p).dbgBegin core value [p.id]
      if p.eff = 0 then s1 else s1.stepOver core g p.id

/-- DBG_STEP_ALL (R168, R389): every live split that is not waiting is to issue one instruction, in
increasing id order. -/
def execDbgStepAll (core value : Nat) (s : State) : Out :=
  s.dbgWrite core value 2 fun g y =>
    let ids := (rangeFrom 0 97).filter fun i => y.running.any fun p => decide (p.id = i ∧ p.eff = 0)
    let s1 := (s.dbgBegin core value ids).readyStep core g
    if ids = [] then s1.stepOver core g (lowestId y.running).id else s1

/-- DBG_MOVE (R389): the named split is moved into the split table. -/
def execDbgMove (core value : Nat) (s : State) : Out :=
  s.dbgWrite core value 3 fun g y =>
    match y.named? value with
    | none => s.dbgEnd core value 2
    | some p => (s.bringIn core g y p).dbgEnd core value 0

end Sys2Proof.Machine
end

