-- ==== Sys2Proof/Machine/Launch.lean ====
section
/-!
DEFINITION. Launch queues, launch records, gang placement and the end of launches (R372 to R376, R384,
R394 to R396).
-/
namespace Sys2Proof.Machine

/-! ### Doorbells (R372) -/

/-- A launch queue of a function. -/
def Fn.queue (f : Fn) (q : Nat) : LQueue := tget {} f.queues q
/-- A launch queue changed. -/
def State.modQueue (s : State) (f q : Nat) (g : LQueue → LQueue) : State :=
  s.modFn f fun x => { x with queues := tset {} x.queues q (g (x.queue q)) }

/-- QWP_DOORBELL (R372, R379): the write is stored; a count beyond the queue's size sets QERR, clears
ENABLE and raises an event of kind 8, whether ENABLE was 1 or not (log entry 75). A write during a
function-level reset is ignored. -/
def execQwpDoorbell (fn queue value : Nat) (s : State) : Out :=
  if 64 < fn ∨ 16 ≤ queue then s.noEvent
  else if (s.fn fn).resetting then .next s
  else
    let q := (s.fn fn).queue queue
    let w := BitVec.ofNat 32 value
    let s1 := s.modQueue fn queue fun q => { q with qwp := w }
    if 2 ^ q.size < (w - q.qrp).toNat then
      .next ((s1.modQueue fn queue fun q => { q with qerr := true, enable := false }).raise fn 8 queue 0 0
        (s.cycle 0) 0 0 0)
    else .next s1

/-! ### The checks of a record (R374, R375) -/

/-- Word `i` of a record. -/
def recWord (r : List Byte) (i : Nat) : Word := BitVec.ofNat 32 (leNat ((r.drop (4 * i)).take 4))

/-- The VF of an address space: the one a valid ASID table entry names on some die (R342). -/
def State.asidVfs (s : State) (asid : Nat) : List Nat :=
  (rangeFrom 0 4).filterMap fun d =>
    let w := tget 0 (s.die d).asidT asid
    if w.getLsbD 63 ∧ bits w 62 58 = 0 ∧ bits w 16 0 = 0 then some (bits w 57 52) else none

/-- The VF under which a launch of a function runs, when its ASID is bound (R373, R374). -/
def State.launchVf (s : State) (fn asid : Nat) : Option Nat :=
  if fn = 64 then (s.asidVfs asid).head? else if (s.asidVfs asid).contains fn then some fn else none

/-- What a record asks for once the `.launch` values have taken the place of zeros (R374). -/
structure Params where
  lanes : Nat
  groups : Nat
  gangp : Nat
  gangf : Nat
  size : Nat
  prog : ProgInfo

/-- A field, or the object's value for 0. -/
def orElse0 (n d : Nat) : Nat := if n = 0 then d else n

/-- The parameters of a record for a group program. -/
def paramsOf (r : List Byte) (p : ProgInfo) : Params :=
  let w := recWord r 5
  { lanes := orElse0 (bits w 6 0) p.lanes, groups := orElse0 (bits w 11 7) p.groups
    gangp := orElse0 (bits w 14 12) p.gangp, gangf := orElse0 (bits w 17 15) p.gangf
    size := orElse0 (recWord r 6).toNat p.spad, prog := p }

/-- The words of a record that fail a check of R375, given the code object that it names; JRADDR is a host-region
address (R336, R374). -/
def State.badWords (s : State) (fn : Nat) (r : List Byte) (o : Option CodeObj) : List Nat :=
  let w (i : Nat) : Word := recWord r i
  let prog := o.bind fun o => o.progs[(w 4).toNat]?
  let handlerOk := match o with
    | some o => (tfind? o.handlers (bits (w 0) 18 13)).isSome
    | none => false
  let chk (b : Bool) (i : Nat) : List Nat := if b then [i] else []
  chk (decide (bits (w 0) 31 19 ≠ 0 ∨ bits (w 0) 7 0 ≠ 1) || ((w 0).getLsbD 12 && !handlerOk)) 0 ++
  chk (decide (bits (w 1) 31 8 ≠ 0) || (s.launchVf fn (bits (w 1) 7 0)).isNone) 1 ++
  chk o.isNone 2 ++
  chk prog.isNone 4 ++
  (match o, prog with
    | some o, some p =>
      let x := paramsOf r p
      chk (decide (bits (w 5) 31 18 ≠ 0 ∨ 96 < x.lanes ∨ x.lanes = 0 ∨ 16 < x.groups ∨ x.groups = 0 ∨
        4 < x.gangp ∨ x.gangp = 0 ∨ 4 < x.gangf ∨ x.gangf = 0 ∨ x.gangp < x.gangf)) 5 ++
      chk (decide (1048576 < x.size ∨ allocSize x.size < o.image.length + 64 * p.padN)) 6
    | _, _ => []) ++
  chk (decide (w 7 = 0 ∨ 2 ^ 20 < (w 7).toNat)) 7 ++
  chk (decide (w 11 = 0)) 11 ++
  chk ((w 0).getLsbD 10 && (decide (w 16 = 0 ∧ w 17 = 0) || decide (bits (w 16) 5 0 ≠ 0 ∨
    (w 17).toNat / 2 ^ 21 ≠ 4))) 16 ++
  ((rangeFrom 22 10 ++ rangeFrom 48 16).filter fun i => decide (w i ≠ 0))

/-- Coordinates of a neighbour in a torus: dimension `d` moved by one, the others equal (R395). -/
def torusStep (ext : List Nat) (rank d : Nat) (plus : Bool) : Nat :=
  let e := ext.getD d 1
  let below := (ext.take d).foldl (· * ·) 1
  let c := rank / below % e
  let c' := if plus then (c + 1) % e else (c + e - 1) % e
  rank - c * below + c' * below

/-- A process-group table decoded, or none when it breaks R394 or R395. -/
def pgOfBytes (b : List Byte) : Option PGroup :=
  let w (i : Nat) : Word := recWord b i
  let ndim := bits (w 0) 9 8
  let ext := [(w 4).toNat, (w 5).toNat, (w 6).toNat]
  let size := (w 1).toNat
  let rank := (w 2).toNat
  let dimOk (d : Nat) : Bool :=
    let e := ext.getD d 0
    let side (i : Nat) (plus : Bool) : Bool :=
      let v := w i
      if d < ndim then
        decide (bits v 31 23 = 0 ∧ bits v 22 18 ≤ 17 ∧ bits v 17 0 = torusStep ext rank d plus)
      else decide (bits v 31 23 = 0 ∧ bits v 22 18 = 31 ∧ bits v 17 0 = 0)
    decide (1 ≤ e ∧ e ≤ 262144) && (decide (d < ndim) || decide (e = 1)) && side (7 + 2 * d) false &&
      side (8 + 2 * d) true
  if bits (w 0) 31 10 = 0 ∧ bits (w 0) 7 0 = 1 ∧ 1 ≤ size ∧ size ≤ 262144 ∧ rank < size ∧ w 3 ≠ 0 ∧
      w 13 = 0 ∧ w 14 = 0 ∧ w 15 = 0 ∧ ext.foldl (· * ·) 1 = size ∧ (rangeFrom 0 3).all dimOk then
    some { ndim, size, rank, key := w 3, ext
           links := (rangeFrom 7 6).map fun i => (bits (w i) 22 18, bits (w i) 17 0) }
  else none

/-- The process group that a record names: none for a table that fails (R394, R395). -/
def State.readPg (s : State) (asid vf : Nat) (r : List Byte) : Option PGroup × State :=
  let a := (recWord r 9 ++ recWord r 8 : DWord).toNat
  if a = 0 then (some {}, s)
  else if a % 64 ≠ 0 ∨ 2 ^ 56 ≤ a ∨ 4 < a / 2 ^ 53 then (none, s)
  else
    match s.readBytes 0 asid vf 3 a 64 with
    | (.ok (b, false), t) => (pgOfBytes b, t)
    | (_, t) => (none, t)

/-- The measurement log as bytes (R382). -/
def Trust.logBytes (t : Trust) : List Byte := t.log.flatten

/-- The launch that a record makes (R374 to R376, R396). -/
def launchOf (id fn vf : Nat) (r : List Byte) (x : Params) (pg : PGroup) (fwdig : List Byte) : Launch :=
  let w (i : Nat) : Word := recWord r i
  { id, fn, vf, asid := bits (w 1) 7 0, priv := fn == 64
    object := (w 3 ++ w 2 : DWord).toNat, prog := (w 4).toNat
    lanes := x.lanes, groups := x.groups, gangp := x.gangp, gangf := x.gangf, spad := x.size
    gangs := (w 7).toNat, nextGang := (w 7).toNat * pg.rank / pg.size
    endGang := (w 7).toNat * (pg.rank + 1) / pg.size, pg
    wdog := (w 10).toNat, lid := w 11, preds := (rangeFrom 12 4).map w, prio := bits (w 0) 9 8
    trapEntry := if (w 0).getLsbD 12 then some (bits (w 0) 18 13) else none
    jobrec := (w 0).getLsbD 10, jraddr := w 17 ++ w 16, nonce := (rangeFrom 18 4).map w
    start := (rangeFrom 32 16).map w, record := r, fwdig }

/-- A launch refused with an event of kind 3 (R375). -/
def State.refuseLaunch (s : State) (fn cause : Nat) (lid : Word) : State :=
  s.raise fn 3 cause 0 lid (s.cycle 0) 0 0 0

/-- A record taken: refused with its cause, or a launch (R375, R395). -/
def State.takeRecord (s : State) (fn : Nat) (r : List Byte) : State :=
  let lid := recWord r 11
  let o := s.objects.find? fun o =>
    decide (o.asid = bits (recWord r 1) 7 0 ∧ o.addr = (recWord r 3 ++ recWord r 2 : DWord).toNat)
  match s.badWords fn r o with
  | w :: _ => s.refuseLaunch fn w lid
  | [] =>
    match o.bind (fun o => o.progs[(recWord r 4).toNat]?), s.launchVf fn (bits (recWord r 1) 7 0) with
    | some p, some vf =>
      match s.readPg (bits (recWord r 1) 7 0) vf r with
      | (none, t) => t.refuseLaunch fn 8 lid
      | (some pg, t) =>
        if (recWord r 0).getLsbD 11 ∧ !(t.fn vf).ide then t.refuseLaunch fn 0x80 lid
        else
          { t with
            gridSeq := t.gridSeq + 1
            jobs := if pg.key = 0 then t.jobs else (vf, pg) :: t.jobs.filter fun x => decide (x.2.key ≠ pg.key)
            launches := t.launches ++
              [launchOf t.gridSeq fn vf r (paramsOf r p) pg (Config.sha256 t.trust.logBytes)] }
    | _, _ => s.refuseLaunch fn 4 lid

/-- LAUNCH_TAKE (R372, R375, R380, R382): the next record of an enabled queue is read whole and checked; none
is taken for a VF that a checkpoint holds, and none of a VF after a halted boot. -/
def execLaunchTake (fn queue : Nat) (s : State) : Out :=
  let q := (s.fn fn).queue queue
  let r := tblBytes s.hostMem (q.base.toNat + 256 * (q.qrp.toNat % 2 ^ q.size)) 256
  let held := s.ckptHolds fn || (s.launchVf fn (bits (recWord r 1) 7 0)).any s.ckptHolds
  if 64 < fn ∨ 16 ≤ queue ∨ !q.enable ∨ q.qwp = q.qrp ∨ (s.fn fn).resetting ∨ held ∨ (s.trust.halted ∧ fn ≠ 64) then
    s.noEvent
  else .next ((s.modQueue fn queue fun q => { q with qrp := q.qrp + 1 }).takeRecord fn r)

/-! ### Gang placement (R376) -/

/-- Whether a launch is ready: no predecessor that its VF took earlier still stands (R375). -/
def State.ready (s : State) (l : Launch) : Bool :=
  !(s.launches.any fun p => decide (p.fn = l.fn ∧ p.id < l.id ∧ p.lid ∈ l.preds ∧ p.lid ≠ 0))

/-- The group program of a launch. -/
def State.progOf (s : State) (l : Launch) : ProgInfo :=
  ((s.object? l.id).bind fun o => o.progs[l.prog]?).getD {}

/-- The cores of a cluster that can take a block of a launch, in CORENO order. -/
def State.roomIn (s : State) (l : Launch) (k : Nat) : List Nat :=
  (rangeFrom (4 * k) 4).filter fun c => (s.core c).hasRoom l.groups (s.progOf l).foot (allocSize l.spad)

/-- The clusters of the device in the order in which a gang tries them. -/
def State.clusterOrder (s : State) : List Nat :=
  match s.lastCluster with
  | none => rangeFrom 0 64
  | some k => (rangeFrom (k + 1) 64).map (· % 64)

/-- Where the next gang of a launch goes: the cluster, its cores and the gang's size. -/
def State.gangSpot (s : State) (l : Launch) : Option (Nat × List Nat) :=
  let at_ (n : Nat) : Option (Nat × List Nat) :=
    (s.clusterOrder.find? fun k => decide (n ≤ (s.roomIn l k).length)).map fun k =>
      (k, (s.roomIn l k).take n)
  (at_ l.gangp).or (if l.gangf < l.gangp then at_ l.gangf else none)

/-- Whether a launch has a gang to place now. -/
def State.wantsPlace (s : State) (l : Launch) : Bool :=
  s.ready l && decide (l.nextGang < l.endGang) && !s.ckptHolds l.vf && !(s.fn l.vf).resetting

/-- The groups of a block of a launch (R83, R376). -/
def blockGroups (l : Launch) (p : ProgInfo) : List NewGroup :=
  (rangeFrom 0 l.groups).map fun i =>
    { gid := i, lanes := l.lanes, foot := p.foot, entry := p.entry, words := l.start }

/-- The blocks of a gang started on its cores. -/
def State.placeBlocks (s : State) (l : Launch) (size : Nat) : List Nat → Nat → Option State
  | [], _ => some s
  | c :: cs, b =>
    let p := s.progOf l
    let k : Block :=
      { vf := l.vf, asid := l.asid, priv := l.priv, launch := l.id, gang := l.nextGang, blockId := b
        gangSize := size, size := allocSize l.spad, padN := p.padN, trapEntry := l.trapEntry }
    match s.startBlock c k (blockGroups l p) with
    | none => none
    | some t => t.placeBlocks l size cs (b + 1)

/-- GANG_PLACEMENT (R376): the next gang of a ready launch is placed, unless a launch that comes before it
by PRIO and order could place one. -/
def execGangPlacement (launch : Nat) (s : State) : Out :=
  match s.launch? launch with
  | none => s.noEvent
  | some l =>
    let first := s.launches.any fun m =>
      decide (l.prio < m.prio ∨ (l.prio = m.prio ∧ m.id < l.id)) && s.wantsPlace m && (s.gangSpot m).isSome
    if !s.wantsPlace l ∨ first then s.noEvent
    else
      match s.gangSpot l with
      | none => s.noEvent
      | some (k, cores) =>
        match s.placeBlocks l cores.length cores 0 with
        | none => s.noEvent
        | some t =>
          .next { (t.modLaunch launch fun l => { l with nextGang := l.nextGang + 1 }) with
            lastCluster := some k }

/-! ### The end of a launch (R375, R384) -/

/-- Whether any block, saved block, task or write of a launch stands. -/
def State.launchBusy (s : State) (id : Nat) : Bool :=
  (s.cores.any fun kc =>
    (kc.2.blocks.any fun b => b.2.launch == id) || (kc.2.saved.any fun v => v.block.launch == id) ||
      (kc.2.tasks.any fun t => t.2.launch == id && decide (1 ≤ t.2.state ∧ t.2.state ≤ 4)) ||
      kc.2.cmds.any fun m => m.launch == id) || s.fly.any fun f => f.launch == id

/-- Bytes of a list made exactly `n`. -/
def fitBytes (l : List Byte) (n : Nat) : List Byte := l.take n ++ List.replicate (n - l.length) 0

/-- The first 256 bytes of a job record (R384). -/
def State.jobHead (s : State) (l : Launch) : List Byte :=
  let code := match s.object? l.id with
    | some o => o.bytes
    | none => []
  fitBytes (natLe (1 + l.vf * 256 + l.asid * 65536) 4 ++ natLe l.lid.toNat 4 ++
    natLe (match l.fault with
      | some r => r.cause
      | none => 0) 4 ++
    natLe (s.trust.jobs + 1) 8 ++ fitBytes l.fwdig 32 ++ fitBytes (Config.sha256 l.record) 32 ++
    fitBytes (Config.sha256 code) 32 ++ l.nonce.flatMap fun w => natLe w.toNat 4) 256

/-- A job record: its head and the signature over it (R384). -/
def State.jobRecord (s : State) (l : Launch) : List Byte :=
  s.jobHead l ++ fitBytes (Config.identitySign (s.trust.jobs + 1) (s.jobHead l)) 384

/-- Bytes written to host-region memory through the page tables of die 0, unit by unit; units that do not
translate are not written. -/
def State.writeRegion (s : State) (asid vf : Nat) : Nat → Nat → List Byte → State
  | 0, _, _ => s
  | fuel + 1, va, l =>
    if l = [] then s
    else
      let k := 64 - va % 64
      let (u, y) := (s.die 0).look asid vf va 1
      let s0 := s.modDie 0 fun _ => y
      let s1 := match u with
        | .ok t => if t.leaf.quar then s0 else s0.writeHost (t.pa + va % 64) (l.take k)
        | .error _ => s0
      s1.writeRegion asid vf fuel (va + k) (l.drop k)

/-- The event of a launch's end: kind 1, or kind 2 with the first fatal end (R375, R377). -/
def State.endEvent (s : State) (l : Launch) : State :=
  match l.fault with
  | none => s.raise l.fn 1 0 0 l.lid (s.cycle 0) 0 0 0
  | some r =>
    s.raise l.fn 2 r.cause r.core l.lid r.cyc r.pc r.info
      (BitVec.ofNat 32 (r.gid + 16 * r.blockId + 64 * r.gang))

/-- LAUNCH_END (R375): every group has ended and every command has completed, with their writes performed:
the job record, then the event; the grid's handler tables go. -/
def execLaunchEnd (launch : Nat) (s : State) : Out :=
  match s.launch? launch with
  | none => s.noEvent
  | some l =>
    if !s.ready l ∨ l.nextGang < l.endGang ∨ s.launchBusy launch then
      s.noEvent
    else
      let s1 := if l.jobrec then
          { (s.writeRegion l.asid l.vf 11 l.jraddr.toNat (s.jobRecord l)) with
            trust := { s.trust with jobs := s.trust.jobs + 1 } }
        else s
      let s2 := s1.endEvent l
      .next { s2 with
        launches := s2.launches.filter fun m => decide (m.id ≠ launch)
        cores := s2.cores.map fun kc =>
          (kc.1, { kc.2 with tables := kc.2.tables.filter fun t => decide (t ≠ launch) }) }

end Sys2Proof.Machine
end

