-- ==== Sys2Proof/Machine/Matrix.lean ====
section
/-!
DEFINITION. The matrix engine as an agent (R255 to R274): the arbiter and its passes, planes, the drain
path, operand faults, the checks of the array and of the accumulator memory, and service.
-/
namespace Sys2Proof.Machine

/-! ### The arbiter (R258) -/

/-- Whether an entry accepted before `e` satisfies `p`. -/
def Cluster.earlier (x : Cluster) (e : MEntry) (p : MEntry → Bool) : Bool :=
  x.entries.any fun f => decide (f.num < e.num) && p f

/-- Whether two entries belong to one gang. -/
def MEntry.sameGang (e f : MEntry) : Bool := e.launch == f.launch && e.gang == f.gang

/-- Whether an entry names a tile: MLOOP, MDRAIN and MZERO do. -/
def MEntry.tiled (e : MEntry) : Bool := decide (2 ≤ e.kind)

/-- Whether another gang's parked entries hold the tile of `e` (R271). -/
def Cluster.tileBusy (x : Cluster) (e : MEntry) : Bool :=
  e.tiled && x.entries.any fun f => f.tiled && f.state == 3 && f.tile == e.tile && !f.sameGang e

/-- Gang order (R258, rule 2). -/
def Cluster.gangOk (x : Cluster) (e : MEntry) : Bool :=
  !x.earlier e fun f => f.sameGang e && (!f.tiled || !e.tiled)

/-- Whether an entry may start or go on: rules 1 and 2 of R258, and the engine is online. -/
def Cluster.free (x : Cluster) (e : MEntry) : Bool :=
  !x.offline && decide (e.state ≤ 1) && x.gangOk e && !(e.state == 0 && x.tileBusy e) &&
    !(e.tiled && x.earlier e fun f => f.tiled && f.tile == e.tile)

/-- The entry in a slot of the reservation table. -/
def Cluster.entryAt? (x : Cluster) (slot : Nat) : Option MEntry :=
  x.entries.find? fun e => decide (e.slot = slot)

/-- K-steps of a loop. -/
def MEntry.loop (e : MEntry) : LoopDesc := loopDesc e.a e.b

/-- The Z and BS bits of MDRAIN (R268). -/
def MEntry.drainZ (e : MEntry) : Bool := e.imm.testBit 3
def MEntry.bs (e : MEntry) : Bool := e.imm.testBit 2

/-- The priority of a loop: 3 once it has aged (R258, rule 3). -/
def MEntry.prio (e : MEntry) : Nat := if e.aged then 3 else e.imm / 4 % 4

/-- The loop that the next pass is granted to: of the eligible ones the highest priority, then the one
accepted first (R258, rule 3). -/
def Cluster.choice (x : Cluster) : Option MEntry :=
  (x.entries.filter fun e => decide (e.kind = 2 ∧ e.step < e.loop.ks) && x.free e).foldl (fun best e =>
    match best with
    | none => some e
    | some b =>
      if b.prio < e.prio ∨ (b.prio = e.prio ∧ e.num < b.num) then some e else best) none

/-- Whether a loop is to be raised to priority 3 and has not been (R258, rule 3). -/
def MEntry.ageDue (e : MEntry) (now : Nat) : Bool :=
  decide (e.kind = 2 ∧ e.state ≤ 1 ∧ e.at_ + 65536 ≤ now) && !e.aged

/-- An entry of a cluster changed. -/
def State.modEntry (s : State) (k num : Nat) (f : MEntry → MEntry) : State :=
  s.modCluster k fun x => { x with entries := x.entries.map fun e => if e.num = num then f e else e }

/-! ### The end of an entry (R258, R260, R268, R275) -/

/-- The MDRAIN that waits for an entry goes on (R268). -/
def State.wakeDrain (s : State) (e : MEntry) : State :=
  s.modGroup e.core e.gslot fun g =>
    if g.uid = e.uid then
      { g with splits := g.splits.map fun p =>
          if p.await = .drain e.num then { p with await := .drained } else p }
    else g

/-- A status reported to the group that posted an entry (R275, R276). -/
def State.reportEntry (s : State) (e : MEntry) (st : Option (Nat × Nat)) : State :=
  match st with
  | none => s
  | some (code, opnd) =>
    s.modGroup e.core e.gslot fun g =>
      if g.uid = e.uid then { g with mstat := mstatReport g.mstat e.slot e.tile opnd code } else g

/-- An entry completes: T counts down for a counted loop, its MDRAIN goes on, and its status is reported;
for a parked one, whose group is context-saved, when its block is restored (R260, R274, R276). -/
def State.endEntry (s : State) (k : Nat) (e : MEntry) (st : Option (Nat × Nat)) : State :=
  let s1 := s.dropEntries k fun f => decide (f.num = e.num)
  if e.state = 3 then { s1 with lateMtx := s1.lateMtx ++ (st.map fun x => (e, x)).toList }
  else (s1.wakeDrain e).reportEntry e st

/-- An entry abandoned with a status: the tile of a running loop is restored first (R275). -/
def State.abandon (s : State) (k : Nat) (e : MEntry) (st : Option (Nat × Nat)) : State :=
  (if e.kind = 2 ∧ e.state = 1 ∧ e.step ≠ 0 then s.modCluster k fun x => x.restore e.tile else s).endEntry k e st

/-- The engine goes offline: every entry completes with status OFFLINE (R258, R274). -/
def State.goOffline (s : State) (k : Nat) : State :=
  (s.cluster k).entries.foldl (fun t e => t.abandon k e (some (msOFFLINE, 3)))
    (s.modCluster k fun x => { x with offline := true })

/-! ### Operands (R262, R265) -/

/-- The space of a handle, or of the block's own allocation for 0, as the engine finds it for a block;
not valid when the block is gone or the handle no longer holds (R260, R270). -/
def State.engSpace (s : State) (core block buid : Nat) (h : Word) : Loc :=
  let k := (s.block? core block).getD {}
  let alive := (s.block? core block).isSome && k.uid == buid
  if h = 0 then { home := core, base := k.base, limit := k.usable, handle := none, valid := alive }
  else
    let b := s.handleBuf core h
    { home := handleHome core h, base := b.base, limit := 32 * b.len32, handle := some h
      valid := alive && decide (s.handleReason core block h = 0) }

/-- The space of an operand of an entry. -/
def State.spaceIn (s : State) (e : MEntry) (h : Word) : Loc := s.engSpace e.core e.block e.buid h

/-- The space of B's scales: that of B, or for P = 1 the one that the MLOADW of the active plane named; a
handle is to hold for the posting block (R262, R270). -/
def State.scaleSpace (s : State) (x : Cluster) (e : MEntry) : Loc :=
  let p := x.active.space
  if !e.p then s.spaceIn e e.loop.bh
  else if p.2.2.2 = 0 then s.engSpace p.1 p.2.1 p.2.2.1 0
  else s.spaceIn e p.2.2.2

/-- A range that a K-step reads, with its operand: 0 A, 1 B, 2 A scales, 3 B scales. -/
structure ORead where
  opnd : Nat
  loc : Loc
  off : Nat
  len : Nat

/-- What K-step `n` of a loop reads, in operand order (R262). -/
def State.stepReads (s : State) (x : Cluster) (e : MEntry) (n : Nat) : List ORead :=
  let d := e.loop
  let a := s.spaceIn e d.ah
  ((rangeFrom 0 d.m).map fun m =>
    { opnd := 0, loc := a, off := d.aoff + 256 * d.ainc * n + d.astride * m, len := 256 }) ++
  (if e.p then [] else
    [{ opnd := 1, loc := s.spaceIn e d.bh, off := d.boff + 256 * d.binc * n, len := 65536 }]) ++
  (if scaledA e.fmt then
    let nb := scaleWords (fmtAF e.fmt)
    (rangeFrom 0 d.m).map fun m =>
      { opnd := 2, loc := a, off := d.asoff + 4 * (d.asstr * m + nb * n), len := 4 * nb } else []) ++
  (if scaledB e.fmt then
    let nb := scaleWords (fmtBF e.fmt)
    let b := s.scaleSpace x e
    (rangeFrom 0 256).map fun c =>
      { opnd := 3, loc := b, off := d.bsoff + 4 * (d.bsstr * c + nb * n), len := 4 * nb } else [])

/-- The first read that meets a handle no longer valid or a poisoned line: its operand, and whether it
is the handle (R270). -/
def State.readFault (s : State) (l : List ORead) : Option (Nat × Bool) :=
  l.findSome? fun r =>
    if !r.loc.valid then some (r.opnd, r.loc.handle.isSome)
    else if s.spadPoisoned r.loc.home (r.loc.base + r.off) r.len then some (r.opnd, false)
    else none

/-- The bytes of a range of a space. -/
def State.locBytes (s : State) (p : Loc) (off n : Nat) : List Byte :=
  tblBytes (s.core p.home).spad (p.base + off) n

/-- The plane of 64 KiB at an offset of a space (R256). -/
def State.planeAt (s : State) (p : Loc) (off : Nat) : Tbl Byte :=
  let lo := p.base + off
  (((s.core p.home).spad.filter fun kv => decide (lo ≤ kv.1 ∧ kv.1 < lo + 65536)).map fun kv =>
    (kv.1 - lo, kv.2))

/-- The element codes packed in bytes (R26). -/
def unpackElems (w : Nat) : List Byte → List Nat
  | [] => []
  | a :: t =>
    if w = 4 then (a.toNat % 16) :: (a.toNat / 16) :: unpackElems w t
    else if w = 8 then a.toNat :: unpackElems w t
    else if w = 16 then
      match t with
      | b :: t => (a.toNat + 256 * b.toNat) :: unpackElems w t
      | [] => []
    else
      match t with
      | b :: c :: d :: t => leNat [a, b, c, d] :: unpackElems w t
      | _ => []

/-- The bytes of element codes (R26). -/
def packElems (w : Nat) : List Nat → List Byte
  | [] => []
  | a :: t =>
    if w = 4 then
      match t with
      | b :: t => BitVec.ofNat 8 (a % 16 + 16 * (b % 16)) :: packElems w t
      | [] => [BitVec.ofNat 8 (a % 16)]
    else natLe a (w / 8) ++ packElems w t

/-- The exact values of the elements packed in bytes (R23, R25). -/
def valuesOf (f : ElemFmt) (l : List Byte) : List FVal := (unpackElems f.width l).map f.decode

/-- An SC20 scale: none for the zero scale (R28, R29). -/
def scaleVal (w : Word) : Option FVal :=
  let e := bits w 19 12
  if e = 0 then none
  else if e = 255 then some .nan
  else some (.fin false (4096 + bits w 11 0) 1 ((e : Int) - 139))

/-- Whether a scale word is invalid: a reserved bit is set (R27, R30). -/
def badScale (w : Word) : Bool := decide (bits w 31 20 ≠ 0)

/-- An exact sum; −0 only when every addend is −0 (R265). -/
def exactSum : List FVal → FVal
  | [] => .fin false 0 1 0
  | [v] => v
  | v :: t => FVal.add .rne v (exactSum t)

/-- The term of one block: the zero scale first, then the NaN scale, else the exact product (R265). -/
def blockTerm (a b : List FVal) (sa sb : Option FVal) : FVal :=
  match sa, sb with
  | none, _ => .fin false 0 1 0
  | _, none => .fin false 0 1 0
  | some .nan, _ => .nan
  | _, some .nan => .nan
  | some x, some y => ((exactSum (List.zipWith FVal.mul a b)).mul x).mul y

/-- A value truncated toward zero to whole units of 2^q. -/
def FVal.truncUnits (q : Int) : FVal → Int
  | .fin neg num den exp =>
    let i : Int := (inUnits num den exp q).1
    if neg then -i else i
  | _ => 0

/-- Whether a value is a zero, and its sign. -/
def FVal.isZero : FVal → Bool
  | .fin _ num _ _ => num == 0
  | _ => false

/-- Whether a value is the infinity of a sign. -/
def FVal.isInf (v : FVal) (neg : Bool) : Bool :=
  match v with
  | .inf n => n == neg
  | _ => false

/-- The exponent of the largest magnitude of nonzero finite terms. -/
def maxExp (l : List FVal) : Int :=
  (l.filterMap fun v => match v with
    | .fin _ num den exp => if num = 0 then none else some (expOf num den exp)
    | _ => none).foldl (fun o e => match o with
      | none => some e
      | some x => some (if x < e then e else x)) (none : Option Int) |>.getD 0

/-- passsum: the sum of a pass's terms as an FP32 code (R265). -/
def passSum (l : List FVal) : Nat :=
  if l.any FVal.isNan || (l.any (·.isInf true) && l.any (·.isInf false)) then fp32.nan
  else if l.any (·.isInf true) then fp32.signed true fp32.inf
  else if l.any (·.isInf false) then fp32.inf
  else if l.all FVal.isZero then fp32.signed (l.all FVal.sign) 0
  else
    let q := maxExp l - 48
    let sum : Int := l.foldl (fun n v => n + v.truncUnits q) 0
    if sum = 0 then 0 else fp32.round .rne false (.fin (sum < 0) sum.natAbs 1 q)

/-- One element of the tile after one pass: `va` and `vb` are the values along K, and `sa` and `sb` the
scales of their blocks when scale mode is nonzero (R265). -/
def passElem (scm : Bool) (acc : Nat) (old : Word) (va vb : List FVal) (sa sb : List (Option FVal)) :
    Word :=
  if acc = 1 then
    let sum : Int := (List.zipWith FVal.mul va vb).foldl (fun n v => n + v.truncUnits 0) 0
    old + BitVec.ofInt 32 sum
  else
    let terms :=
      if scm then
        (rangeFrom 0 sa.length).map fun j =>
          blockTerm ((va.drop (32 * j)).take 32) ((vb.drop (32 * j)).take 32) (sa.getD j none)
            (sb.getD j none)
      else List.zipWith FVal.mul va vb
    BitVec.ofNat 32 (fp32.round .rne false
      (FVal.add .rne (fp32.decode old.toNat) (fp32.decode (passSum terms))))

/-- A word of a tile as the engine reads it: rows with an uncorrectable error read as the canonical NaN
(R272). -/
def Cluster.tileWord (x : Cluster) (tile m n : Nat) : Word :=
  if x.badRows.contains (256 * tile + m) then BitVec.ofNat 32 fp32.nan
  else tget 0 x.acc (65536 * tile + 256 * m + n)

/-- A row of a tile written whole (R272). -/
def Cluster.setRow (x : Cluster) (tile m : Nat) (l : List Word) : Cluster :=
  { x with
    acc := (l.zipIdx.foldl (fun t wn => tset 0 t (65536 * tile + 256 * m + wn.2) wn.1) x.acc)
    badRows := x.badRows.filter (· != 256 * tile + m) }

/-- A row of a tile as read. -/
def Cluster.row (x : Cluster) (tile m : Nat) : List Word :=
  (rangeFrom 0 256).map fun n => x.tileWord tile m n

/-- The shadow takes a copy of rows 0 to m − 1 of a tile (R267). -/
def Cluster.copyRows (x : Cluster) (tile m : Nat) : Cluster :=
  let x1 := x.dropShadow tile
  { x1 with
    shadowRows := x1.shadowRows ++ (rangeFrom 0 m).map fun r => 256 * tile + r
    shadow := (rangeFrom 0 m).foldl (fun t r =>
      ((x.row tile r).zipIdx.foldl (fun t wn => tset 0 t (65536 * tile + 256 * r + wn.2) wn.1) t))
      x1.shadow }

/-- The scale words of a row, or of a column, in K-step `n` (R262). -/
def State.scaleRow (s : State) (p : Loc) (off str nb n r : Nat) : List Word :=
  (rangeFrom 0 nb).map fun j =>
    BitVec.ofNat 32 (leNat (s.locBytes p (off + 4 * (str * r + nb * n + j)) 4))

/-- The A scale rows and the B scale columns of a K-step; none where the operand is not scaled. -/
def State.stepScales (s : State) (x : Cluster) (e : MEntry) : List (List Word) × List (List Word) :=
  let d := e.loop
  (if scaledA e.fmt then
    (rangeFrom 0 d.m).map (s.scaleRow (s.spaceIn e d.ah) d.asoff d.asstr (scaleWords (fmtAF e.fmt)) e.step)
   else [],
   if scaledB e.fmt then
    (rangeFrom 0 256).map (s.scaleRow (s.scaleSpace x e) d.bsoff d.bsstr (scaleWords (fmtBF e.fmt)) e.step)
   else [])

/-- The operand whose scale words hold an invalid one (R30): A when both do (log entry 42). -/
def badScales (sc : List (List Word) × List (List Word)) : Option Nat :=
  if sc.1.any fun l => l.any badScale then some 0
  else if sc.2.any fun l => l.any badScale then some 1
  else none

/-- One pass: rows 0 to M − 1 of A against a plane, added to the tile (R265). -/
def State.runPass (s : State) (x : Cluster) (e : MEntry) (plane : Tbl Byte)
    (sc : List (List Word) × List (List Word)) : Cluster :=
  let d := e.loop
  let a := s.spaceIn e d.ah
  let fa := (elemFmt (fmtAF e.fmt)).getD (.float fp32)
  let fb := (elemFmt (fmtBF e.fmt)).getD (.float fp32)
  let nb := scaleWords (fmtAF e.fmt)
  let ones : List (Option FVal) := (rangeFrom 0 nb).map fun _ => some (.fin false 1 1 0)
  let col (n : Nat) : List FVal := valuesOf fb (tblBytes plane (256 * n) 256)
  let cols := (rangeFrom 0 256).map fun n =>
    (col n, if scaledB e.fmt then (sc.2.getD n []).map scaleVal else ones)
  (rangeFrom 0 d.m).foldl (fun y m =>
    let va := valuesOf fa (s.locBytes a (d.aoff + 256 * d.ainc * e.step + d.astride * m) 256)
    let sa := if scaledA e.fmt then (sc.1.getD m []).map scaleVal else ones
    y.setRow e.tile m (List.zipWith (fun old c =>
      passElem (scaledA e.fmt || scaledB e.fmt) (fmtACC e.fmt) old va c.1 sa c.2) (y.row e.tile m) cols)) x

/-- The B scale range of a P = 1 loop lies outside its space (R260). -/
def State.bScaleOutside (s : State) (x : Cluster) (e : MEntry) : Bool :=
  let d := e.loop
  let p := s.scaleSpace x e
  e.p && scaledB e.fmt && p.valid &&
    decide (p.limit < d.bsoff + 4 * (d.bsstr * 255 + scaleWords (fmtBF e.fmt) * d.ks))

/-- What a loop shows at the grant of its first pass: PLANE, or BADDESC of its B scales (R263, R275). -/
def State.grantStatus (s : State) (x : Cluster) (e : MEntry) : Option (Nat × Nat) :=
  if e.step ≠ 0 then none
  else if e.p && decide (x.active.tag ≠ some (e.launch, e.gang)) then some (msPLANE, 1)
  else if s.bScaleOutside x e then some (msBADDESC, 1)
  else none

/-- Rows copied to the shadow and, with Z, set to zero at a loop's first pass (R261, R267). -/
def Cluster.firstPass (x : Cluster) (e : MEntry) : Cluster :=
  if e.step ≠ 0 then x
  else
    let y := x.copyRows e.tile e.loop.m
    if e.z then (rangeFrom 0 e.loop.m).foldl (fun z m => z.setRow e.tile m (List.replicate 256 0)) y else y

/-- A trap posted to the group of an entry (R270). -/
def State.postMatrixTrap (s : State) (e : MEntry) (cause info : Nat) : State :=
  s.modGroup e.core e.gslot fun g =>
    if g.uid = e.uid then
      { g with trap := { g.trap with matrix := g.trap.matrix ++
          [{ split := e.split, cause, info := BitVec.ofNat 32 info, pc := 0, resume := 0, posted := true }] } }
    else g

/-- A cell named (R273, R276). -/
def Cluster.nameCell (x : Cluster) (spare : Bool) (row col : Nat) : Cluster :=
  let n := tget 0 x.rowNames row + 1
  let y := { x with names := Nat.min 255 (x.names + 1), nameValid := true, nameSpare := spare, nameCol := col
                    nameRow := if spare then 0 else row }
  if spare then
    { y with spareNames := x.spareNames + 1
             sparebad := x.sparebad || decide (1 ≤ x.spareNames)
             chkpause := x.chkpause || decide (1 ≤ x.spareNames) }
  else if 2 ≤ n then
    { y with rowNames := tset 0 x.rowNames row n, mapped := true, maprow := row, chkpause := true }
  else { y with rowNames := tset 0 x.rowNames row n }

/-- The replay of the K-step in which a loop mismatched has run: a cell is named, or, when it agrees with
neither, the tile is restored, the loop dropped with MATRIXCHK and the engine goes offline (R273). -/
def State.compared (s : State) (k : Nat) (e : MEntry) : State :=
  match e.mism.find? fun m => m.1 == e.step with
  | none => s
  | some (_, row, col, outcome) =>
    if outcome = 2 then
      ((s.abandon k { e with state := 1 } none).postMatrixTrap e cMATRIXCHK (2 ^ 28 + 2)).goOffline k
    else
      (s.modCluster k fun x => x.nameCell (outcome == 0) row col).modEntry k e.num fun f =>
        { f with mism := f.mism.filter fun m => m.1 != e.step }

/-- PASS_GRANT (R258, R263, R265, R267, R273): the chosen loop runs its next K-step, and a replay is
compared; a loop that shows a status completes with it instead. A K-step that meets both an operand fault (R270)
and a scale word that is no valid one (R30) takes the operand fault: the spec gives no order (DESIGN CHOICE, log
entry 42). -/
def execPassGrant (cluster : Nat) (s : State) : Out :=
  let x := s.cluster cluster
  match x.choice with
  | none => s.noEvent
  | some e =>
    if x.entries.any fun f => f.ageDue s.now then s.noEvent
    else
      match s.grantStatus x e with
      | some st => .next (s.endEntry cluster e (some st))
      | none =>
        if (s.readFault (s.stepReads x e e.step)).isSome then s.noEvent
        else
          let sc := s.stepScales x e
          match badScales sc with
          | some o => .next ((s.modEntry cluster e.num fun e => { e with state := 1, ran := true }).abandon
              cluster { e with state := 1 } (some (msBADSCALE, o)))
          | none =>
            let plane := if e.p then x.active.bytes
              else s.planeAt (s.spaceIn e e.loop.bh) (e.loop.boff + 256 * e.loop.binc * e.step)
            let y := s.runPass (x.firstPass e) e plane sc
            .next (((s.modCluster cluster fun _ =>
              { y with
                active := if e.p then y.active else { bytes := plane, tag := none }
                shadowP := if e.p then y.shadowP else y.active
                passes := y.passes + 1 }).modEntry cluster e.num fun e =>
                  { e with state := 1, ran := true, step := e.step + 1, row := x.passes % 128 }).compared
                    cluster e)

/-- LOOP_PRIORITY_AGING (R258, rule 3): a loop accepted 65,536 cycles ago counts as priority 3. -/
def execLoopPriorityAging (cluster entry : Nat) (s : State) : Out :=
  match (s.cluster cluster).entryAt? entry with
  | none => s.noEvent
  | some e =>
    if e.ageDue s.now then .next (s.modEntry cluster e.num fun e => { e with aged := true })
    else s.noEvent

/-- MATRIX_ENTRY_COMPLETE (R258, R263, R271): a loop's last pass has ended, or another gang's parked
entries hold the tile. -/
def execMatrixEntryComplete (cluster entry : Nat) (s : State) : Out :=
  let x := s.cluster cluster
  match x.entryAt? entry with
  | none => s.noEvent
  | some e =>
    if e.kind = 2 ∧ e.state = 1 ∧ e.step = e.loop.ks then .next (s.endEntry cluster e none)
    else if e.state == 0 && x.tileBusy e && x.gangOk e &&
        !(x.earlier e fun f => f.tiled && f.tile == e.tile && f.state != 3) then
      .next (s.endEntry cluster e (some (msBUSY, 3)))
    else s.noEvent

/-! ### Planes (R264) -/

/-- The read of an MLOADW. -/
def State.planeRead (s : State) (e : MEntry) : ORead :=
  { opnd := 1, loc := s.spaceIn e (wd e.b 0), off := (wd e.a 0).toNat, len := 65536 }

/-- PLANE_LOAD (R264): the shadow plane is loaded and tagged, and the space of B recorded. -/
def execPlaneLoad (cluster entry : Nat) (s : State) : Out :=
  let x := s.cluster cluster
  match x.entryAt? entry with
  | none => s.noEvent
  | some e =>
    let r := s.planeRead e
    if decide (e.kind = 0) && x.free e && (s.readFault [r]).isNone then
      .next ((s.modCluster cluster fun x =>
        { x with shadowP :=
          { bytes := s.planeAt r.loc r.off, tag := some (e.launch, e.gang)
            space := (e.core, e.block, e.buid, wd e.b 0) } }).endEntry cluster e none)
    else s.noEvent

/-- PLANE_SWAP (R264): the planes change places with their tags. -/
def execPlaneSwap (cluster entry : Nat) (s : State) : Out :=
  let x := s.cluster cluster
  match x.entryAt? entry with
  | none => s.noEvent
  | some e =>
    if decide (e.kind = 1) && x.free e then
      .next ((s.modCluster cluster fun x => { x with active := x.shadowP, shadowP := x.active }).endEntry
        cluster e none)
    else s.noEvent

/-! ### The drain path (R268, R269) -/

/-- Whether the drain path is taken. -/
def Cluster.draining (x : Cluster) : Bool := x.entries.any fun e => decide (3 ≤ e.kind ∧ e.state = 1)

/-- The value of a tile word under the accumulate format. -/
def accVal (acc : Nat) (w : Word) : FVal :=
  if acc = 1 then FVal.ofInt w.toInt else fp32.decode w.toNat

/-- The largest finite value of an output format (R32). -/
def ElemFmt.vmax (f : ElemFmt) : FVal :=
  match f with
  | .float g => g.decode g.maxFinite
  | .int w s => FVal.ofInt (if s then 2 ^ (w - 1) - 1 else 2 ^ w - 1)

/-- The magnitude of a value that is no NaN. -/
def FVal.abs : FVal → FVal
  | .nan => .nan
  | .inf _ => .inf false
  | .fin _ n d e => .fin false n d e

/-- The scale word of the largest magnitude of a block, and whether it was clamped (R32). -/
def encodeScale (f : ElemFmt) (l : List FVal) : Word × Bool :=
  let amax := l.foldl (fun m v => if m.lt v.abs then v.abs else m) (.fin false 0 1 0)
  if l.any FVal.isNan || amax.isInf false then (0xFF000, false)
  else
    match amax.div f.vmax with
    | .fin _ num den exp =>
      if num = 0 then (0, false)
      else
        let e := expOf num den exp
        let u := inUnits num den exp (e - 12)
        let j := if u.2.1 = 0 then u.1 else u.1 + 1
        let e1 := if j = 8192 then e + 1 else e
        let j1 := if j = 8192 then 4096 else j
        if e1 + 127 < 1 then (0x1000, true)
        else (BitVec.ofNat 32 ((e1 + 127).toNat * 4096 + (j1 - 4096)), false)
    | _ => (0xFF000, false)

/-- What a block of 32 columns of a drained row writes: its element codes, and with BS its scale word and
whether that was clamped (R268). `col` is its first column and `rnd` gives the random field of a column. -/
def drainBlock (fo : ElemFmt) (bs : Bool) (field : Nat) (rnd : Nat → Nat) (col : Nat) (vals : List FVal) :
    List Nat × Word × Bool :=
  let mode (n : Nat) : RMode := rmode (field % 8) (rnd n) 16
  let sat := decide (8 ≤ field)
  if bs then
    let sc := encodeScale fo vals
    (vals.zipIdx.map fun vi =>
      match scaleVal sc.1 with
      | none => 0
      | some .nan => fo.round .rne false .nan
      | some x => fo.round (mode (col + vi.2)) sat (vi.1.div x), sc)
  else (vals.zipIdx.map fun vi => fo.round (mode (col + vi.2)) sat vi.1, 0, false)

/-- What the writes of a drain go on from: the state, and the bytes of each line that it has written (R175,
R268). -/
structure Draining where
  s : State
  clean : Tbl (BitVec 32) := []

/-- One write of a drain: a line that the drain has now written whole, in pieces, loses its poison and
non-resident bits (R175, R193). -/
def Draining.put (d : Draining) (home : Nat) (cells : List (Nat × Byte)) : Draining :=
  let clean := coverLines d.clean home cells
  let whole := wholeLines clean home cells
  { s := (d.s.writeSpad none home cells false false).clearLines home whole whole, clean }

/-- Block `j` of row `r` drained: its scale word, then its elements (R268). -/
def Draining.block (u : Draining) (k : Nat) (e : MEntry) (r j : Nat) : Draining :=
  let d := drainDesc e.a
  let p := u.s.spaceIn e (wd e.b 0)
  let own := u.s.spaceIn e 0
  let fo := (elemFmt (fmtOUTF e.fmt)).getD (.float fp32)
  let rnd (n : Nat) : Nat := leNat (u.s.locBytes own (d.rndoff + 2 * (256 * r + n)) 2)
  let vals := ((((u.s.cluster k).row e.tile r).drop (32 * j)).take 32).map (accVal (fmtACC e.fmt))
  let o := drainBlock fo e.bs (cvmField e.cvm (fmtOUTF e.fmt)) rnd (32 * j) vals
  let u1 := if e.bs then
      u.put p.home (cellsAt (p.base + d.sooff + 4 * (d.sostr * r + j)) (natLe o.2.1.toNat 4))
    else u
  let u2 := u1.put p.home (cellsAt (p.base + d.doff + d.dstride * r + 4 * fo.width * j) (packElems fo.width o.1))
  if o.2.2 then
    { u2 with s := u2.s.modGroup e.core e.gslot fun g =>
        if g.uid = e.uid then g.setFlag statSCUF else g }
  else u2

/-- One row drained: its blocks written, and with Z set to zero; a row with an error is left out (R268,
R272). -/
def Draining.row (u : Draining) (k : Nat) (e : MEntry) (r : Nat) : Draining :=
  if e.skip.contains r then u
  else
    let v := (rangeFrom 0 8).foldl (fun v j => v.block k e r j) u
    if e.drainZ then
      { v with s := v.s.modCluster k fun x => x.setRow e.tile r (List.replicate 256 0) }
    else v

/-- Every row of an MDRAIN drained (R268). -/
def State.drain (s : State) (k : Nat) (e : MEntry) : State :=
  ((rangeFrom 0 (drainDesc e.a).rows).foldl (fun (u : Draining) r => u.row k e r)
    { s := s }).s

/-- The cycles for which an entry holds the drain path (R268, R269). -/
def MEntry.drainTime (e : MEntry) : Nat :=
  if e.kind = 3 then 16 + (drainDesc e.a).rows else 16 + 256

/-- The drain path takes an entry, or finishes the one it holds with the effect `f`. -/
def State.drainPath (s : State) (k slot kind : Nat) (f : MEntry → State → State) : Out :=
  let x := s.cluster k
  match x.entryAt? slot with
  | none => s.noEvent
  | some e =>
    if e.kind ≠ kind then s.noEvent
    else if e.state = 0 ∧ x.free e ∧ !x.draining then
      .next (s.modEntry k e.num fun e => { e with state := 1, began := s.now })
    else if e.state = 1 ∧ !x.offline ∧ e.began + e.drainTime ≤ s.now then .next ((f e s).endEntry k e none)
    else s.noEvent

/-- DRAIN_PERFORM (R268): the drain path takes an MDRAIN; 16 + ROWS cycles later its rows are written and
it completes. -/
def execDrainPerform (cluster entry : Nat) (s : State) : Out :=
  s.drainPath cluster entry 3 fun e t => t.drain cluster e

/-- ZERO_PERFORM (R269): the drain path takes an MZERO; 16 + 256 cycles later the tile is zero. -/
def execZeroPerform (cluster entry : Nat) (s : State) : Out :=
  s.drainPath cluster entry 4 fun e t =>
    t.modCluster cluster fun x =>
      { x with acc := x.acc.filter fun kv => decide (kv.1 / 65536 ≠ e.tile)
               badRows := x.badRows.filter fun r => decide (r / 256 ≠ e.tile) }

/-! ### Faults and checks (R270, R272, R273) -/

/-- Whether the group that posted an entry still stands. -/
def State.posted (s : State) (e : MEntry) : Bool :=
  match s.group? e.core e.gslot with
  | none => false
  | some g => g.uid == e.uid && !g.ended

/-- The operand fault of an entry that would run now (R270). -/
def State.entryFault (s : State) (x : Cluster) (e : MEntry) : Option (Nat × Bool) :=
  if e.kind = 0 then s.readFault [s.planeRead e]
  else if e.kind = 2 ∧ s.grantStatus x e = none then s.readFault (s.stepReads x e e.step)
  else none

/-- OPERAND_FAULT (R270): a loop's tile is restored, or the shadow plane loses its tag; the entry is held
and a trap posted to its group. An entry whose group has ended is dropped. -/
def execOperandFault (cluster entry : Nat) (s : State) : Out :=
  let x := s.cluster cluster
  match x.entryAt? entry with
  | none => s.noEvent
  | some e =>
    let turn := (decide (e.kind = 0) && x.free e) || decide (x.choice.map (·.num) = some e.num)
    match s.entryFault x e, turn with
    | some (o, h), true =>
      let s1 := if e.kind = 0 then
          s.modCluster cluster fun x => { x with shadowP := { x.shadowP with tag := none } }
        else if e.step ≠ 0 then s.modCluster cluster fun x => x.restore e.tile else s
      let s1 := s1.modEntry cluster e.num fun e => { e with ran := true }
      if s.posted e then
        let s2 := (s1.modEntry cluster e.num fun e => { e with state := 2, step := 0 }).postMatrixTrap e
          (if h then cHANDLE else cPOISON)
          (2 ^ 28 + o * 2 ^ 29 + (if e.kind = 0 then 0 else e.tile) * 2 ^ 24 + e.slot * 2 ^ 16 +
            if h then 512 else 0)
        .next (if e.kind = 2 then
            s2.modGroup e.core e.gslot fun g => { g with cmds := { g.cmds with t := g.cmds.t - 1 } }
          else s2)
      else .next (s1.endEntry cluster e none)
    | _, _ => s.noEvent

/-- SPARE_ROW_MISMATCH (R273): the last pass of a loop mismatched in the row that it checked; the tile is
restored and the loop replays from its first pass. In the replay of that K-step the products will agree
with the main array's (`outcome` 0), with the spare row's (1) or with neither (2). -/
def execSpareRowMismatch (cluster entry column outcome : Nat) (s : State) : Out :=
  let x := s.cluster cluster
  match x.entryAt? entry with
  | none => s.noEvent
  | some e =>
    if e.kind ≠ 2 ∨ e.state ≠ 1 ∨ e.step = 0 ∨ x.chkpause ∨ x.offline ∨ 256 ≤ column ∨ 3 ≤ outcome then
      s.noEvent
    else
      .next ((s.modCluster cluster fun x => x.restore e.tile).modEntry cluster e.num fun e =>
        { e with step := 0, mism := (e.step - 1, e.row, column, outcome) :: e.mism })

/-- A row of a tile in error (R272). -/
def Cluster.spoil (x : Cluster) (tile row : Nat) : Cluster :=
  { x with badRows := (256 * tile + row) :: x.badRows.filter (· != 256 * tile + row) }

/-- ACCUMULATOR_ERROR (R272): found by a pass, the tile is restored and the loop replays once; found again
or by a drain, MATRIXCHK is posted and the row reads as NaN. -/
def execAccumulatorError (cluster entry row : Nat) (s : State) : Out :=
  match (s.cluster cluster).entryAt? entry with
  | none => s.noEvent
  | some e =>
    let spoilt (t : State) : State := t.modCluster cluster fun x => x.spoil e.tile row
    if e.kind = 2 ∧ e.state = 1 ∧ 0 < e.step ∧ row < e.loop.m then
      if e.replayed then
        .next ((spoilt (s.abandon cluster e none)).postMatrixTrap e cMATRIXCHK (2 ^ 28 + 1))
      else
        .next ((s.modCluster cluster fun x => x.restore e.tile).modEntry cluster e.num fun e =>
          { e with step := 0, replayed := true })
    else if e.kind = 3 ∧ e.state = 1 ∧ row < (drainDesc e.a).rows ∧ !e.skip.contains row then
      .next ((spoilt (s.modEntry cluster e.num fun e => { e with skip := row :: e.skip })).postMatrixTrap e
        cMATRIXCHK (2 ^ 28 + 1))
    else s.noEvent

/-- ENGINE_SERVICE (R274): bit 0 of MSERV services the engine; its tiles are unchanged. -/
def execEngineService (cluster value : Nat) (s : State) : Out :=
  if value % 2 = 1 then
    .next (s.modCluster cluster fun x =>
      { x with offline := false, chkpause := false, mapped := false, sparebad := false, maprow := 0
               names := 0, nameValid := false, nameSpare := false, nameCol := 0, nameRow := 0
               spareNames := 0, rowNames := [] })
  else .next s

/-- MATRIX_TRAP_DELIVERY (R166, R219, R270): a posted trap is taken at a packet boundary when no trap of the group
is in progress, in the posting split or the lowest one when that has ended; not while the group's splits still
merge or its block rolls back. -/
def execMatrixTrapDelivery (core slot : Nat) (s : State) : Out :=
  match s.group? core slot with
  | none => s.noEvent
  | some g =>
    match g.trap.matrix with
    | [] => s.noEvent
    | t :: rest =>
      if g.trap.active || g.trap.pending.isSome || g.ended || g.releasing ||
          (s.block? core g.block).any fun k => k.rolling.isSome then s.noEvent
      else
        let low := g.splits.foldl (fun (o : Option Split) p => match o with
          | none => some p
          | some q => if p.id < q.id then some p else o) none
        match (g.splits.find? fun p => decide (p.id = t.split)).or low with
        | none => s.noEvent
        | some p =>
          .next ((s.modGroup core slot fun g => { g with trap := { g.trap with matrix := rest } }).takeTrap
            core slot { t with split := p.id, pc := p.pc, resume := p.pc })

end Sys2Proof.Machine
end

