-- ==== Sys2Proof/Machine/Msg.lean ====
section
/-!
DEFINITION. Messages, active messages and NACKs at their destination core, and the fills of receives
(R203 to R210, R309, R327).
-/
namespace Sys2Proof.Machine

/-! ### Arrival (R207, R309) -/

/-- The VF of the block that a channel is bound to, resident or saved. -/
def State.chanVf (s : State) (c : Nat) (e : Chan) : Option Nat :=
  match s.block? c e.block with
  | some k => some k.vf
  | none => ((s.core c).saved.find? fun v => v.slot == e.block && v.block.pinSlot && !v.late).map (·.block.vf)

/-- What becomes of a message at its channel: a NACK of a kind, entry into the channel or the backing, or
waiting (R204, R207, R309). -/
inductive Fate where
  | nack (kind : Nat)
  | enter
  | back
  | wait
deriving DecidableEq, Repr

/-- The fate of a SEND or SENDV message. -/
def State.fate (s : State) (c : Nat) (m : Msg) : Fate :=
  let e := tget {} (s.core c).chans m.chan
  if (s.core c).resetBy ≠ [] ∧ e.state = 0 then .nack 4
  else if e.state = 0 then .nack 2
  else if s.chanVf c e ≠ some m.part then .nack 2
  else if e.gen ≠ bits m.dest 31 20 then .nack 1
  else if e.state = 1 then (if e.msgs.length < 4 ∧ e.backing = [] then .enter else .wait)
  else if e.backing.length < 256 then .back else .wait

/-- The first message of a landing buffer that no earlier one to the same place keeps back (R210). -/
def firstFree (kind : Nat) (ok : Msg → Bool) : List Msg → List Msg → Option Msg
  | _, [] => none
  | before, m :: l =>
    if m.kind = kind ∧ ok m ∧ !(before.any fun b => decide (b.kind = kind) && (kind == 1 || b.chan == m.chan))
    then some m
    else firstFree kind ok (m :: before) l

/-- A message taken out of the landing buffer. -/
def State.unland (s : State) (c : Nat) (m : Msg) : State :=
  s.modCore c fun x => { x with landing := x.landing.erase m }

/-- MESSAGE_ARRIVAL (R207): a message in the landing buffer enters its channel or the backing, or is
dropped with a NACK. A message to a full channel waits. -/
def execMessageArrival (core : Nat) (s : State) : Out :=
  match firstFree 0 (fun m => s.fate core m != .wait) [] (s.core core).landing with
  | none => s.noEvent
  | some m =>
    let s1 := (s.unland core m).sent m
    .next (match s.fate core m with
      | .nack k => s1.nackTo core m k
      | .enter => s1.modCore core fun x => { x with chans := tmod x.chans m.chan fun e =>
          { e with msgs := e.msgs ++ [m] } }
      | _ => (s1.modCore core fun x => { x with chans := tmod x.chans m.chan fun e =>
          { e with backing := e.backing ++ [m] } }).mirrorBacking core (tget {} (s.core core).chans m.chan).block)

/-! ### Fills (R206) -/

/-- The receive posted first on a channel. -/
def firstPosted (l : List Posted) : Option Posted :=
  l.foldl (fun best p => match best with
    | none => some p
    | some q => if p.num < q.num then some p else best) none

/-- RECEIVE_FILL (R200, R206, R216, R217): the receive posted first on a channel takes the message at its head;
it must be one of the group in `slot`. The journal records a vector register first. -/
def execReceiveFill (core slot chan : Nat) (s : State) : Out :=
  match s.group? core slot, firstPosted ((s.core core).postedOn slot chan), s.present core slot chan 0 with
  | some g, some p, some m =>
    if g.q.posted.contains p then
      let s0 := s.takeMsg core slot chan 0
      let s1 := (if p.isV then s0.journalReg core slot g.block p.dst else s0).modGroup core slot fun g =>
        let h := (g.fill p m.words).give p p.sa (recvStatus m.gen m.src m.words.length)
        { h with q := { h.q with posted := h.q.posted.erase p }
                 cmds := { h.cmds with r := h.cmds.r - 1 } }
      .next (s1.exposeIn core g.block p.interval)
    else s.noEvent
  | _, _, _ => s.noEvent

/-! ### NACKs (R208) -/

/-- The error message of a NACK. -/
def errorMsg (m : Msg) : List Word :=
  [BitVec.ofNat 32 (m.nack + 256 * m.chan), m.dest, m.grid, m.payload.headD 0]

/-- A NACK of a group's own message enters its error queue, or is dropped when that is full. -/
def Group.takeNack (g : Group) (m : Msg) : Group :=
  if g.uid ≠ m.srcUid then g
  else if 4 ≤ g.q.errq.length then { g with q := { g.q with errDrop := true } }
  else { g with q := { g.q with errq := g.q.errq ++ [errorMsg m] } }

/-- NACK_ARRIVAL (R208): a NACK enters the error queue of the sender's group, or is dropped when the
queue is full or the group has ended. -/
def execNackArrival (core : Nat) (s : State) : Out :=
  match (s.core core).nacks with
  | [] => s.noEvent
  | m :: rest =>
    .next (s.modCore core fun x =>
      { x with
        nacks := rest
        groups := x.groups.map fun kg => (kg.1, kg.2.takeNack m)
        saved := x.saved.map fun v => { v with groups := v.groups.map fun kg => (kg.1, kg.2.takeNack m) } })

/-! ### Active messages (R209) -/

/-- Every block of a grid on a core is context-saved. -/
def Core.swapped (x : Core) (grid : Nat) : Bool :=
  (x.saved.any fun v => decide (v.block.launch = grid)) && !(x.blocks.any fun b => decide (b.2.launch = grid))

/-- The fate of an active message. -/
def State.amFate (s : State) (c : Nat) (m : Msg) : Fate :=
  let x := s.core c
  let grid := m.grid.toNat
  if x.resetBy ≠ [] ∧ !x.tables.contains grid then .nack 4
  else if !x.tables.contains grid ∨ (s.handler? grid m.chan).isNone ∨
      ((s.launch? grid).any fun l => l.vf != m.part) then .nack 2
  else if x.swapped grid then .back
  else if x.amq.length < 32 then .enter else .wait

/-- AMSG_ARRIVAL (R209): an active message joins the queue or the grid's backing, or is dropped with a
NACK of kind 2, or 4 at a core that a reset took the grid from (R330). -/
def execAmsgArrival (core : Nat) (s : State) : Out :=
  match firstFree 1 (fun m => s.amFate core m != .wait) [] (s.core core).landing with
  | none => s.noEvent
  | some m =>
    let s1 := (s.unland core m).sent m
    .next (match s.amFate core m with
      | .nack k => s1.nackTo core m k
      | .enter => s1.modCore core fun x => { x with amq := x.amq ++ [m] }
      | _ => s1.modCore core fun x => { x with ambacking := x.ambacking ++ [m] })

/-- The message whose handler starts next on a core: the first one backed for a grid that is resident
again, else the head of the queue (DESIGN CHOICE, log entry 81). -/
def Core.nextAm (x : Core) : Option Msg :=
  (x.ambacking.find? fun m => !x.swapped m.grid.toNat).or x.amq.head?

/-- A message taken out of the active-message queue or the backing. -/
def Core.dropAm (x : Core) (m : Msg) : Core :=
  if x.ambacking.contains m ∧ !x.swapped m.grid.toNat then { x with ambacking := x.ambacking.erase m }
  else { x with amq := x.amq.drop 1 }

/-- HANDLER_START (R209): the handler of the oldest active message starts as one group in a block of its
own, with the payload in s0 up. A message whose grid has finished is discarded with a NACK of kind 2 (DESIGN
CHOICE, log entry 81). -/
def execHandlerStart (core : Nat) (s : State) : Out :=
  match (s.core core).nextAm with
  | none => s.noEvent
  | some m =>
    let s1 := s.modCore core fun x => x.dropAm m
    match s.launch? m.grid.toNat, s.handler? m.grid.toNat m.chan with
    | some l, some h =>
      let b : Block :=
        { vf := l.vf, asid := l.asid, priv := l.priv, launch := l.id, size := allocSize h.spad
          padN := h.padN, trapEntry := l.trapEntry, amsg := true }
      match s1.startBlock core b
          [{ gid := 0, lanes := h.lanes, foot := h.foot, entry := h.entry, words := m.payload.take 16 }] with
      | some t => .next t
      | none => s.noEvent
    | _, _ => .next (s1.nackTo core m 2)

end Sys2Proof.Machine
end

