-- ==== Sys2Proof/Machine/Msk.lean ====
section
/-!
DEFINITION. The MSK instructions (major 0x05, R127, R128).
-/
namespace Sys2Proof.Machine

/-- A mask instruction: k[VD] written in the lanes that take part (R127). -/
def mskOp (f : FmtV) (s : State) (g : LaneMask → LaneMask → LaneMask) : Out :=
  s.issue fun cx =>
    (s.setK cx (f.vd.toNat % 8) (cx.active f.km)
      (g (cx.k (f.va.toNat % 8)) (cx.k (f.vb.toNat % 8)))).advance cx f.lx

/-- KAND (R128). -/
def execKand (f : FmtV) (s : State) : Out := mskOp f s fun a b => a &&& b

/-- KOR (R128). -/
def execKor (f : FmtV) (s : State) : Out := mskOp f s fun a b => a ||| b

/-- KXOR (R128). -/
def execKxor (f : FmtV) (s : State) : Out := mskOp f s fun a b => a ^^^ b

/-- KANDN (R128): ka AND NOT kb. -/
def execKandn (f : FmtV) (s : State) : Out := mskOp f s fun a b => a &&& ~~~b

/-- KNOT (R128). -/
def execKnot (f : FmtV) (s : State) : Out := mskOp f s fun a _ => ~~~a

/-- KMOV (R128). -/
def execKmov (f : FmtV) (s : State) : Out := mskOp f s fun a _ => a

/-- KFROMS (R128): lanes 32w to 32w + 31 from the bits of b. -/
def execKfroms (f : FmtV) (s : State) : Out :=
  s.issue fun cx =>
    let w := f.imm8.toNat
    (s.setK cx (f.vd.toNat % 8) (cx.active f.km &&& laneRange (32 * w) (32 * w + 32))
      (((f.opB cx 0).setWidth 96) <<< (32 * w))).advance cx f.lx

/-- KTOS (R128): s[VD] := 32 bits of ka as stored. -/
def execKtos (f : FmtV) (s : State) : Out :=
  s.issue fun cx =>
    (s.setS cx (f.vd.toNat % 64)
      ((cx.k (f.va.toNat % 8)).extractLsb' (32 * f.imm8.toNat) 32)).advance cx f.lx

/-- KPOPC (R128): s[VD] := the number of participants in ka. -/
def execKpopc (f : FmtV) (s : State) : Out :=
  s.issue fun cx =>
    (s.setS cx (f.vd.toNat % 64)
      (BitVec.ofNat 32 (countLanes (cx.participants f.km &&& cx.k (f.va.toNat % 8))))).advance cx f.lx

/-- KFIRST (R128): s[VD] := the lowest participant in ka, or 96. -/
def execKfirst (f : FmtV) (s : State) : Out :=
  s.issue fun cx =>
    (s.setS cx (f.vd.toNat % 64)
      (BitVec.ofNat 32 ((lowestLane (cx.participants f.km &&& cx.k (f.va.toNat % 8))).getD 96))).advance
      cx f.lx

end Sys2Proof.Machine
end

