-- ==== Sys2Proof/Machine/Regs.lean ====
section
/-!
DEFINITION. The registers that software writes (R372, R373, R377, R381, R385, R387, R389), fixed-latency
mode (R285) and the counters (R284, R328).
-/
namespace Sys2Proof.Machine

/-- Half of a 64-bit register replaced by a 4-byte write: the high one at offset 4. -/
def half (old : DWord) (high : Bool) (v : Word) : DWord :=
  if high then v ++ old.extractLsb' 0 32 else old.extractLsb' 32 32 ++ v

/-- What a 4-byte write of a register does: stored fields, no effect, or a behaviour of its own, which an
instruction of its own describes. -/
inductive Written where
  | stored (s : State)
  | own

/-- A write of a launch queue's registers (R372): QBASE and QSIZE are ignored while ENABLE is 1, QRP is
read-only, QERR is cleared by writing 1. No VF is enabled after a halted boot (R382). Values of QBASE and QSIZE
that R372 does not admit are stored as written (log entry 75). -/
def State.queueWrite (s : State) (f q r : Nat) (v : Word) : Written :=
  let en := ((s.fn f).queue q).enable
  let mod (g : LQueue → LQueue) : Written := .stored (s.modQueue f q g)
  if r = 0 ∨ r = 4 then
    if en then .stored s else mod fun x => { x with base := half x.base (r == 4) v }
  else if r = 8 then (if en then .stored s else mod fun x => { x with size := bits v 4 0 })
  else if r = 0x10 then .own
  else if r = 0x18 then
    mod fun x => { x with enable := v.getLsbD 0 && !(s.trust.halted && decide (f ≠ 64))
                          qerr := x.qerr && !v.getLsbD 1 }
  else .stored s

/-- A write of an event queue's registers (R377; values out of range, log entry 75). -/
def State.eventWrite (s : State) (f r : Nat) (v : Word) : Written :=
  if r = 0 ∨ r = 4 then .stored (s.modFn f fun x => { x with evbase := half x.evbase (r == 4) v })
  else if r = 8 then .stored (s.modFn f fun x => { x with evsize := bits v 4 0 })
  else if r = 0x14 then .stored (s.modFn f fun x => { x with evrp := v })
  else .stored s

/-- A write in a VF's BAR; CONTAIN and POISEN only through the PF's window (R381). -/
def State.vfWrite (s : State) (f off : Nat) (v : Word) (window : Bool) : Written :=
  if 0x1000 ≤ off ∧ off < 0x1400 then s.queueWrite f ((off - 0x1000) / 0x40) (off % 0x40) v
  else if 0x2000 ≤ off ∧ off < 0x2018 then s.eventWrite f (off - 0x2000) v
  else if off = 0x2020 then (if window then .own else .stored s)
  else if off = 0x2024 then
    (if window then .stored (s.modFn f fun x => { x with poisen := bits v 1 0 }) else .stored s)
  else .stored s

/-- A 64-bit table entry of a die, by a 4-byte write: `mask` holds the bits that are stored. -/
def tblHalf (t : Tbl DWord) (off : Nat) (v : Word) (mask : DWord) : Tbl DWord :=
  tset 0 t (off / 8) (half (tget 0 t (off / 8)) (off % 8 == 4) v &&& mask)

/-- The stored bits of a segment register (R343). -/
def segMask : DWord := 0x80FFFFFF00FFFFFF

/-- A write of the debug window of a core (R389): while a group is held, SREGS, KREGS and VREGS within the
footprint change its registers. -/
def State.debugWrite (s : State) (c off : Nat) (v : Word) : Written :=
  if off = 0xFF00 ∨ off = 0xFF04 then .own
  else
    match (s.core c).dbgHeld with
    | none => .stored s
    | some g =>
      .stored (s.modGroup c g fun y =>
        if !y.claimed then y
        else if 0x40 ≤ off ∧ off < 0x120 then
          { y with regs := { y.regs with s := tset 0 y.regs.s ((off - 0x40) / 4) v } }
        else if 0x120 ≤ off ∧ off < 0x174 then
          let n := (off - 0x120) / 12 + 1
          let lo := 32 * ((off - 0x120) % 12 / 4)
          let old := tget 0 y.regs.k n
          let keep := old &&& ~~~((BitVec.ofNat 96 0xFFFFFFFF) <<< lo)
          { y with regs := { y.regs with k := tset 0 y.regs.k n (keep ||| (v.setWidth 96 <<< lo)) } }
        else if 0x3600 ≤ off ∧ (off - 0x3600) / 384 < y.foot then
          { y with regs := { y.regs with v := tset 0 y.regs.v ((off - 0x3600) / 4) v } }
        else y)

/-- A write in the register block of a die (R387). -/
def State.dieWrite (s : State) (d off : Nat) (v : Word) : Written :=
  let mod (f : Die → Die) : Written := .stored (s.modDie d f)
  if off = 0 ∨ off = 4 ∨ off = 0xC ∨ off = 0x10 ∨ (0x40 ≤ off ∧ off < 0x40 + 4 * (if d = 0 ∨ d = 3 then 5 else 4)) then
    .own
  else if 0x1000 ≤ off ∧ off < 0x1080 then
    let i := (off - 0x1000) / 2
    mod fun x => { x with staging := tset 0 (tset 0 x.staging i (bits v 15 0)) (i + 1) (bits v 31 16) }
  else if 0x10000 ≤ off ∧ off < 0x10800 then
    mod fun x => { x with asidT := tblHalf x.asidT (off - 0x10000) v (BitVec.allOnes 64) }
  else if 0x11000 ≤ off ∧ off < 0x11200 then mod fun x => { x with seg := tblHalf x.seg (off - 0x11000) v segMask }
  else if 0x11200 ≤ off ∧ off < 0x11400 then
    (if d = 0 then mod fun x => { x with hostSeg := tblHalf x.hostSeg (off - 0x11200) v segMask } else .stored s)
  else if 0x300000 ≤ off ∧ off < 0x301000 then (if off % 0x100 = 4 then .own else .stored s)
  else if 0x800000 ≤ off ∧ off < 0xC00000 then
    s.debugWrite (64 * d + (off - 0x800000) / 0x10000) (off % 0x10000) v
  else .stored s

/-- A write of a PF register outside windows and die blocks (R381, R387, R388). -/
def State.pfWrite (s : State) (off : Nat) (v : Word) : Written :=
  let mod (f : PfRegs → PfRegs) : Written := .stored { s with pf := f s.pf }
  let da : DWord := 0xFFFFFFFFFFFFF000
  if 0x1000 ≤ off ∧ off < 0x1400 then s.queueWrite 64 ((off - 0x1000) / 0x40) (off % 0x40) v
  else if 0x2000 ≤ off ∧ off < 0x2018 then s.eventWrite 64 (off - 0x2000) v
  else if off = 0x3000 ∨ off = 0x3004 ∨ off = 0x3018 ∨ off = 0x301C ∨ off = 0x3040 then .own
  else if off = 0x3008 ∨ off = 0x300C then mod fun p => { p with ckptda := half p.ckptda (off == 0x300C) v &&& da }
  else if off = 0x3010 ∨ off = 0x3014 then mod fun p => { p with ckptdb := half p.ckptdb (off == 0x3014) v &&& da }
  else if off = 0x3044 then mod fun p => { p with ctxloc := v &&& 0x3FFC }
  else if off = 0x3048 ∨ off = 0x304C then mod fun p => { p with ctxaddr := half p.ctxaddr (off == 0x304C) v }
  else if off = 0x3050 then mod fun p => { p with ctxlen := v }
  else .stored s

/-- A 4-byte write in the BAR of a function: a VF's, or for 64 the PF's (R387). -/
def State.regWrite (s : State) (fn off : Nat) (v : Word) : Written :=
  if off % 4 ≠ 0 then .stored s
  else if fn ≠ 64 then s.vfWrite fn off v false
  else if 0x100000 ≤ off ∧ off < 0x500000 then s.vfWrite ((off - 0x100000) / 0x10000) (off % 0x10000) v true
  else if 0x1000000 ≤ off ∧ off < 0x5000000 then s.dieWrite ((off - 0x1000000) / 0x1000000) (off % 0x1000000) v
  else s.pfWrite off v

/-- REGISTER_WRITE (R387): a write of 4 or 8 bytes stores the fields of the registers it covers; offsets
that no table names ignore it. A register with a behaviour of its own has an instruction of its own. -/
def execRegisterWrite (fn offset size value : Nat) (s : State) : Out :=
  let v := BitVec.ofNat 64 value
  if 64 < fn ∨ (size ≠ 4 ∧ size ≠ 8) then s.noEvent
  else
    match s.regWrite fn offset (v.extractLsb' 0 32) with
    | .own => s.noEvent
    | .stored t =>
      if size = 4 then .next t
      else
        match t.regWrite fn (offset + 4) (v.extractLsb' 32 32) with
        | .own => s.noEvent
        | .stored u => .next u

/-- CONTAIN_CLEAR (R378, R381): a 1 in bit 0 clears the containment of a VF, with DEVLOSS. -/
def execContainClear (vf value : Nat) (s : State) : Out :=
  if value % 2 = 1 then .next (s.modFn vf fun f => { f with contained := false, devloss := false }) else .next s

/-- Whether the device is idle (R285): no group, command, request, packet or message stands. -/
def State.idle (s : State) : Bool :=
  (s.cores.all fun kc => kc.2.groups.isEmpty && kc.2.cmds.isEmpty && kc.2.landing.isEmpty &&
    kc.2.nacks.isEmpty && kc.2.outNacks.isEmpty && kc.2.asks.isEmpty && kc.2.outTasks.isEmpty && kc.2.acks.isEmpty && kc.2.amq.isEmpty && kc.2.fetches.isEmpty) &&
  (s.dies.all fun kd => kd.2.xlat.isEmpty && kd.2.walks.isEmpty && kd.2.joins.isEmpty && kd.2.sealReqs.isEmpty &&
    kd.2.unsealReqs.isEmpty && kd.2.bufs.isEmpty && kd.2.lanes.isEmpty && kd.2.leaving.isEmpty &&
    kd.2.outCtl.isEmpty &&
    kd.2.stops.all fun kt => kt.2.inq.isEmpty && kt.2.folds.isEmpty && kt.2.replies.isEmpty) &&
  s.fly.isEmpty && s.hostReqs.isEmpty && s.fabric.isEmpty && s.contribs.isEmpty && s.results.isEmpty &&
  s.rcopies.isEmpty && s.combiner.isEmpty && s.reports.isEmpty

/-- FIXLAT (R285, R312): while the device is idle, bit 0 enters or leaves the mode on every die, and entering
seeds every LFSR anew; at any other time the write is ignored. -/
def execFixlat (_die value : Nat) (s : State) : Out :=
  let on := decide (value % 2 = 1)
  if !s.idle ∨ s.fixlat = on then .next s
  else if on then
    .next { s with fixlat := true, dies := s.dies.map fun kd => (kd.1, { kd.2 with lfsr := [] }) }
  else .next { s with fixlat := false }

/-- A stop with its counters cleared (R284, R349). -/
def Stop.clearCounts (t : Stop) : Stop :=
  { t with freq := 0, fmrg := 0, ffet := 0, fwrt := 0, cecnt := 0, uecnt := 0, macf := 0, poisr := 0 }

/-- A port with its counters cleared (R328). -/
def Port.clearCounts (p : Port) : Port :=
  { p with txlat := 0, txbulk := 0, txres := 0, promo := 0, stallc := 0, purged := 0 }

/-- CLRCNT (R387): bit 0 clears a die's Fold, protection and port counters in fixed-latency mode. -/
def execClrcnt (die value : Nat) (s : State) : Out :=
  if value % 2 = 1 ∧ s.fixlat then
    .next (s.modDie die fun x =>
      { x with stops := x.stops.map fun kt => (kt.1, kt.2.clearCounts)
               ports := x.ports.map fun kp => (kp.1, kp.2.clearCounts) })
  else .next s

/-! ### Margins (R385) -/

/-- REPLAN (R381, R385): a 1 starts a re-plan of that die. -/
def execReplan (value : Nat) (s : State) : Out :=
  .next ((rangeFrom 0 4).foldl (fun t d =>
    if value.testBit d then t.modDie d fun x => { x with replan := true } else t) s)

/-- 24 hours of the arithmetic clock at 1.4 GHz. -/
def planPeriod : Nat := 24 * 3600 * 1400000000

/-- PERIODIC_REPLAN (R385): every 24 hours, or when REPLAN asks, a die's plan changes: VGB, FCAP and the
wear index, which never decreases, are the bytes of `plan`; an event of kind 10 tells the PF. -/
def execPeriodicReplan (die plan : Nat) (s : State) : Out :=
  let x := s.die die
  if 4 ≤ die ∨ !(x.replan || decide (x.planAt + planPeriod ≤ s.now)) then
    s.noEvent
  else
    .next ((s.modDie die fun x =>
      { x with replan := false, planAt := s.now, vgb := plan / 256 % 256, fcap := plan % 256
               ageIdx := Nat.max x.ageIdx (plan / 65536 % 256) }).raise 64 10 0 (64 * die) 0
      (s.cycle (64 * die)) 0 0 0)

end Sys2Proof.Machine
end

