-- ==== Sys2Proof/Machine/Salu.lean ====
section
/-!
DEFINITION. The SALU instructions (major 0x04, R123 to R125): each executes once per issue of its
split and writes s[SD].
-/
namespace Sys2Proof.Machine

/-- A SALU instruction: its result goes to s[SD] and the split goes on (R123). -/
def salu (f : FmtS) (s : State) (r : Ctx → Word → Word → Word) : Out :=
  s.issue fun cx => (s.setS cx f.sd.toNat (r cx (f.opA cx) (f.opB cx))).advance cx f.lx

/-- The number of one bits of a word. -/
def popc32 (a : Word) : Word := BitVec.ofNat 32 ((rangeFrom 0 32).filter fun i => a.getLsbD i).length

/-- The leading zero bits of a word. -/
def clz32 (a : Word) : Word :=
  BitVec.ofNat 32 ((leastFrom (fun i => a.getLsbD (31 - i)) 0 32).getD 32)

/-- The index of the lowest one bit of a word. -/
def ffs32 (a : Word) : Word := BitVec.ofNat 32 ((leastFrom (fun i => a.getLsbD i) 0 32).getD 32)

/-- SADD (R124): (a + b) mod 2^32. -/
def execSadd (f : FmtS) (s : State) : Out := salu f s fun _ a b => a + b

/-- SSUB (R124): (a − b) mod 2^32. -/
def execSsub (f : FmtS) (s : State) : Out := salu f s fun _ a b => a - b

/-- SMUL (R124): The low 32 bits of the product. -/
def execSmul (f : FmtS) (s : State) : Out := salu f s fun _ a b => a * b

/-- SMULH (R124): The high 32 bits of the signed product. -/
def execSmulh (f : FmtS) (s : State) : Out := salu f s fun _ a b => BitVec.extractLsb' 32 32 (a.signExtend 64 * b.signExtend 64)

/-- SMULHU (R124): The high 32 bits of the unsigned product. -/
def execSmulhu (f : FmtS) (s : State) : Out := salu f s fun _ a b => BitVec.extractLsb' 32 32 (a.setWidth 64 * b.setWidth 64)

/-- SAND (R124): a AND b. -/
def execSand (f : FmtS) (s : State) : Out := salu f s fun _ a b => a &&& b

/-- SOR (R124): a OR b. -/
def execSor (f : FmtS) (s : State) : Out := salu f s fun _ a b => a ||| b

/-- SXOR (R124): a XOR b. -/
def execSxor (f : FmtS) (s : State) : Out := salu f s fun _ a b => a ^^^ b

/-- SANDN (R124): a AND NOT b. -/
def execSandn (f : FmtS) (s : State) : Out := salu f s fun _ a b => a &&& ~~~b

/-- SSHL (R124): a shifted left by b[4:0]. -/
def execSshl (f : FmtS) (s : State) : Out := salu f s fun _ a b => a <<< (b.toNat % 32)

/-- SSHR (R124): a shifted right by b[4:0], zeros in. -/
def execSshr (f : FmtS) (s : State) : Out := salu f s fun _ a b => a >>> (b.toNat % 32)

/-- SSAR (R124): a shifted right by b[4:0], sign copies in. -/
def execSsar (f : FmtS) (s : State) : Out := salu f s fun _ a b => a.sshiftRight (b.toNat % 32)

/-- SROT (R124): a rotated left by b[4:0]. -/
def execSrot (f : FmtS) (s : State) : Out := salu f s fun _ a b => a.rotateLeft (b.toNat % 32)

/-- SMIN (R124): The signed minimum. -/
def execSmin (f : FmtS) (s : State) : Out := salu f s fun _ a b => if BitVec.slt b a then b else a

/-- SMAX (R124): The signed maximum. -/
def execSmax (f : FmtS) (s : State) : Out := salu f s fun _ a b => if BitVec.slt a b then b else a

/-- SMINU (R124): The unsigned minimum. -/
def execSminu (f : FmtS) (s : State) : Out := salu f s fun _ a b => if BitVec.ult b a then b else a

/-- SMAXU (R124): The unsigned maximum. -/
def execSmaxu (f : FmtS) (s : State) : Out := salu f s fun _ a b => if BitVec.ult a b then b else a

/-- SLIH (R124): b[15:0] above a[15:0]. -/
def execSlih (f : FmtS) (s : State) : Out := salu f s fun _ a b => (BitVec.extractLsb' 0 16 b) ++ (BitVec.extractLsb' 0 16 a)

/-- SMOV (R124): b. -/
def execSmov (f : FmtS) (s : State) : Out := salu f s fun _ _ b => b

/-- SLI, short form (R125): the sign-extended IMM29. -/
def execSliShort (f : FmtS) (s : State) : Out := salu f s fun _ _ _ => f.imm29.signExtend 32

/-- SLI, long form (R125): the literal to the pair s[SD], s[SD+1]. -/
def execSliLong (f : FmtS) (s : State) : Out :=
  s.issue fun cx => (s.setSPair cx f.sd.toNat f.lit).advance cx f.lx

/-- SCEQ (R124): 1 if a = b, else 0. -/
def execSceq (f : FmtS) (s : State) : Out :=
  salu f s fun _ a b => bool01 (ICmp.holds .eq a b)

/-- SCNE (R124): 1 if a ≠ b, else 0. -/
def execScne (f : FmtS) (s : State) : Out :=
  salu f s fun _ a b => bool01 (ICmp.holds .ne a b)

/-- SCLT (R124): 1 if a < b signed, else 0. -/
def execSclt (f : FmtS) (s : State) : Out :=
  salu f s fun _ a b => bool01 (ICmp.holds .lt a b)

/-- SCLE (R124): 1 if a ≤ b signed, else 0. -/
def execScle (f : FmtS) (s : State) : Out :=
  salu f s fun _ a b => bool01 (ICmp.holds .le a b)

/-- SCLTU (R124): 1 if a < b unsigned, else 0. -/
def execScltu (f : FmtS) (s : State) : Out :=
  salu f s fun _ a b => bool01 (ICmp.holds .ltu a b)

/-- SCLEU (R124): 1 if a ≤ b unsigned, else 0. -/
def execScleu (f : FmtS) (s : State) : Out :=
  salu f s fun _ a b => bool01 (ICmp.holds .leu a b)

/-- SSEL (R124): a if the old s[SD] ≠ 0, else b. -/
def execSsel (f : FmtS) (s : State) : Out :=
  salu f s fun cx a b => if cx.s f.sd.toNat ≠ 0 then a else b

/-- SPOPC (R124): The number of one bits of a. -/
def execSpopc (f : FmtS) (s : State) : Out := salu f s fun _ a _ => popc32 a

/-- SCLZ (R124): The leading zero bits of a, 32 when a = 0. -/
def execSclz (f : FmtS) (s : State) : Out := salu f s fun _ a _ => clz32 a

/-- SFFS (R124): The index of the lowest one bit of a, 32 when a = 0. -/
def execSffs (f : FmtS) (s : State) : Out := salu f s fun _ a _ => ffs32 a

end Sys2Proof.Machine
end

