-- ==== Sys2Proof/Machine/Eligible.lean ====
section
/-!
DEFINITION. Which groups have a packet to issue: pending registers, code, and what holds a split or a group back
(R131, R140, R149 to R151, R206, R211).
-/
namespace Sys2Proof.Machine

/-! ### Pending registers (R206) -/

/-- A register field of format E that names scalar registers, and how many. -/
def EReg.scalars (k : EReg) (f : FmtE) (r : BitVec 6) : List Nat :=
  match k with
  | .any => [r.toNat]
  | .multiple n => rangeFrom r.toNat n
  | .pushBase => rangeFrom r.toNat 16
  | .recvBase => rangeFrom r.toNat 16
  | .payload => rangeFrom r.toNat f.imm16.toNat
  | _ => []

/-- The scalar registers that an instruction reads or writes by name. -/
def Form.scalars : Form → List Nat
  | .v F f =>
    (if F.d = .scalar then [f.vd.toNat] else []) ++
      (if f.bsc = 1 ∧ f.lx = 0 then [f.vb.toNat % 64] else []) ++
      (if f.csc = 1 ∧ f.lx = 0 then [f.vc.toNat % 64] else [])
  | .s F f =>
    f.sd.toNat :: match F with
      | .binary => f.sa.toNat :: (if f.imm = 0 ∧ f.lx = 0 then [f.sb.toNat] else [])
      | .move => if f.imm = 0 ∧ f.lx = 0 then [f.sb.toNat] else []
      | .loadImm => if f.lx = 1 then [f.sd.toNat + 1] else []
      | .unary => [f.sa.toNat]
  | .b F f =>
    if !F.sa || F.vecSa then []
    else if F.even then [f.sa.toNat, f.sa.toNat + 1] else [f.sa.toNat]
  | .m F f =>
    match F.kind with
    | .lanes => [f.sbase.toNat]
    | .cas => [f.sbase.toNat]
    | .uniform => f.sbase.toNat :: rangeFrom f.vds.toNat (szRegs f.sz.toNat)
    | .compress => [f.sbase.toNat, f.sbase.toNat + 1]
    | .fence => []
    | .sealing => f.vds.toNat ::
        (if f.scope = 2 then [f.sbase.toNat] else [f.sbase.toNat, f.sbase.toNat + 1])
  | .e F f => F.sa.scalars f f.sa ++ F.sb.scalars f f.sb ++ F.sd.scalars f f.sd
  | .none => []

/-- The vector registers that an instruction reads or writes. -/
def Form.vectors : Form → List Nat
  | .v F f =>
    (if F.d = .vec then [f.vd.toNat] else []) ++ (if F.a = .vec then [f.va.toNat] else []) ++
      (if F.b = .any ∧ f.bsc = 0 then [f.vb.toNat] else []) ++
      (if readsC F f ∧ f.csc = 0 then [f.vc.toNat] else [])
  | .b F f => if F.vecSa then [f.sa.toNat] else []
  | .m F f => rangeFrom f.vds.toNat (mRegs F f) ++ (if f.nov = 0 then [f.voff.toNat] else [])
  | .e F f => (if F.sa = .vector then [f.sa.toNat] else []) ++ (if F.sd = .vector then [f.sd.toNat] else [])
  | _ => []

/-- The registers s56 to s63 that an instruction reads without naming them: exec where lanes take part and at
BSZ, RJSET and RJOIN, fmt at MLOOP, MDRAIN and RJSET, and every register of the split that a division copies
(R83, R86, R134 to R136, R155, R156, R202, R261, R268). -/
def unnamedScalars (i : Instr) : List Nat :=
  match i with
  | .mloop _ => [60]
  | .mdrain _ => [60]
  | .resid _ => [61, 62, 63]
  | .bsz _ => [61, 62, 63]
  | .rjoin _ => [61, 62, 63]
  | .rjset _ => [60, 61, 62, 63]
  | .bdiv _ => rangeFrom 56 8
  | .bdivx _ => rangeFrom 56 8
  | i =>
    match form i with
    | .v _ _ => [61, 62, 63]
    | .m F _ => match F.kind with
      | .lanes => [61, 62, 63]
      | .cas => [61, 62, 63]
      | .compress => [61, 62, 63]
      | _ => []
    | .e F _ => if F.km then [61, 62, 63] else []
    | _ => []

/-- Whether an instruction reads or writes one of some scalar registers, those above s55 when `own` says that
they are the split's. -/
def namesScalar (i : Instr) (own : Bool) (regs : List Nat) : Bool :=
  regs.any fun r => (decide (r < 56) || own) && ((form i).scalars.contains r || (unnamedScalars i).contains r)

/-- Whether a posted receive keeps an instruction of a split waiting: it reads or writes a register that the
fill will write. -/
def Posted.holds (p : Posted) (q : Split) (i : Instr) : Bool :=
  namesScalar i (!p.gone && decide (p.split = q.id) && p.handler == q.handler)
    (p.sa :: (if p.isV then [] else rangeFrom p.dst 16)) || (p.isV && (form i).vectors.contains p.dst)

/-- Whether a load that has not performed keeps an instruction of a split waiting so (R174, R187). -/
def LoadOp.holds (o : LoadOp) (q : Split) (i : Instr) : Bool :=
  let regs := rangeFrom o.dst ((o.size + 3) / 4)
  if o.uniform then namesScalar i (decide (o.split = q.id) && (o.both || o.handler == q.handler)) regs
  else regs.any (form i).vectors.contains

/-! ### The choice (R149, R211, R212) -/

/-- What stands at the PC of a split. -/
def State.seen (s : State) (c : Nat) (g : Group) (p : Split) : Fetched :=
  (s.core c).fetched (((s.block? c g.block).getD {}).asid) p.pc.toNat g.foot

/-- Whether a split waits for its code, or for a pending register. -/
def State.lacks (s : State) (c : Nat) (g : Group) (p : Split) : Bool :=
  match s.seen c g p with
  | .missing _ => true
  | .instr i => (g.q.posted.any fun r => r.holds p i) || g.q.loads.any fun o => o.holds p i
  | _ => false

/-- Whether YIELD still holds a split back (R131). -/
def Split.yields (p : Split) (now : Nat) : Bool := p.yielded.any fun t => decide (now < t + 64)

/-- Whether a split may issue: resident, ready since an earlier cycle, not held by YIELD, its code and
registers at hand (R140, R149). -/
def State.canIssue (s : State) (c : Nat) (g : Group) (p : Split) : Bool :=
  g.issues p.id p && decide (p.place < 64 ∧ p.wait = 0 ∧ p.readyAt ≤ s.now) && !p.yields s.now && !s.lacks c g p

/-- The order of R149: due, then PRIO, then the oldest AGE, then the lowest id. -/
def Group.before (g : Group) (cycle : Nat) (a b : Split) : Bool :=
  let due (p : Split) : Bool := p.due || g.dueNow p
  if due a ≠ due b then due a
  else if a.prio ≠ b.prio then a.prio
  else if a.ageAt cycle ≠ b.ageAt cycle then b.ageAt cycle < a.ageAt cycle
  else a.id < b.id

/-- The first of a list of splits in that order. -/
def Group.firstOf (g : Group) (cycle : Nat) : List Split → Option Split
  | [] => none
  | p :: l =>
    match g.firstOf cycle l with
    | none => some p
    | some q => if g.before cycle q p then some q else some p

/-- The splits of a group that may issue now; of a group that a debugger is stepping, the one whose turn
it is (R168). -/
def State.candidates (s : State) (c slot : Nat) (g : Group) (held : List (Nat × Nat)) : List Split :=
  if g.claimed then
    match (s.core c).dbgHeld, (s.core c).steps with
    | some h, id :: _ =>
      if h = slot then
        g.running.filter fun p => decide (p.id = id ∧ p.eff = 0 ∧ p.place < 64 ∧ p.readyAt ≤ s.now) && !s.lacks c g p
      else []
    | _, _ => []
  else g.splits.filter fun p => s.canIssue c g p && !held.contains (slot, p.id)

/-- Whether a paddock swap of a group is due now: nothing holds it back, or a reservation has for 64
cycles (R150, R151). -/
def State.swapNow (s : State) (c slot : Nat) (g : Group) : Bool :=
  match s.swapPair c slot g with
  | some (r, _) => !g.holds r || decide (64 ≤ g.padGrace)
  | none => false

/-- Whether a group is kept from issuing: it has ended or has started a packet in this cycle, a trap or a
paddock swap is due, or its block is pre-empted or rolls back (R150, R151, R211, R219, R233, R270). A trap
that waits for a release to end keeps the whole group, which R166 leaves open (log entry 70). -/
def State.stopped (s : State) (c slot : Nat) (g : Group) : Bool :=
  g.ended || g.issuedAt == some s.now || g.trap.pending.isSome || (!g.trap.matrix.isEmpty && !g.trap.active) ||
    s.swapNow c slot g ||
    match s.block? c g.block with
    | none => true
    | some k => k.preempt || k.rolling.isSome

/-- Whether a core has a group that could issue a packet now, but for what interlocks and branch delays hold back
(R211). -/
def State.eligible (s : State) (c : Nat) : Bool :=
  !s.d3hot && (s.core c).groups.any fun kg => !s.stopped c kg.1 kg.2 && !(s.candidates c kg.1 kg.2 []).isEmpty

end Sys2Proof.Machine
end

