-- ==== Sys2Proof/Machine/Tsk.lean ====
section
/-!
DEFINITION. The TSK instructions (major 0x16, R227 to R232).
-/
namespace Sys2Proof.Machine

/-- The lowest failing word of a task descriptor (R228, R230). -/
def descFail (s : State) (launch : Nat) (w0 w1 w2 : Word) : Option Nat :=
  let pad := bits w1 18 12
  if bits w0 31 6 ≠ 0 ∨ (s.handler? launch (bits w0 5 0)).isNone then some 0
  else if bits w1 31 19 ≠ 0 ∨ w1.getLsbD 7 ∨ 96 < pad ∨ bits w1 11 8 = 0 ∨ bits w1 6 0 = 0 ∨
      96 < bits w1 6 0 then some 1
  else if w2.toNat < 64 * pad ∨ 1048576 < w2.toNat then some 2
  else none

/-- The footprint of a descriptor: REGS8 × 8; the 4-bit field holds 1 to 15, and 16 has no code
(R228). -/
def descFoot (w1 : Word) : Nat := 8 * bits w1 11 8

/-- A task handle (R229). -/
def taskHandle (gen core slot : Nat) : Word :=
  BitVec.ofNat 32 (gen * 2 ^ 20 + (clusterOf core % 16) * 2 ^ 16 + coreNo core * 2 ^ 14 + slot * 256)

/-- SPAWN (R228 to R230): creates a queued task, or writes 0. -/
def execSpawn (f : FmtE) (s : State) : Out :=
  s.issue fun cx =>
    let w (i : Nat) : Word := cx.s (f.sa.toNat + i)
    match descFail s cx.blk.launch (w 0) (w 1) (w 2) with
    | some n => s.trap cx cBADCMD (BitVec.ofNat 32 n)
    | none =>
      if 4 ≤ cx.blk.depth then s.trap cx cTASKDEPTH 0
      else if !cx.anyLaunched then (s.setS cx f.sd.toNat 0).advance cx f.lx
      else
        match leastFrom (fun t => (tget {} (s.core cx.core).tasks t).state == 0) 0 64 with
        | none => (s.setS cx f.sd.toNat 0).advance cx f.lx
        | some t =>
          let (n, s1) := s.freshUid
          let gen := nextGen (tget {} (s.core cx.core).tasks t).gen
          let e : Task :=
            { gen, state := 1, order := n, entry := bits (w 0) 5 0, lanes := bits (w 1) 6 0
              foot := descFoot (w 1), padN := bits (w 1) 18 12, spad := (w 2).toNat, arg := w 3
              depth := cx.blk.depth + 1, vf := cx.blk.vf, asid := cx.blk.asid, priv := cx.blk.priv
              launch := cx.blk.launch, trapEntry := cx.blk.trapEntry, spawner := cx.grp.uid }
          (((s1.modCore cx.core fun x => { x with tasks := tset {} x.tasks t e }).expose cx.core
            cx.grp.block).setS cx f.sd.toNat (taskHandle gen cx.core t)).advance cx f.lx

/-- COMMIT (R217, R231): a running task becomes committed; the interval is exposed. -/
def execCommit (f : FmtE) (s : State) : Out :=
  s.issue fun cx =>
    let s1 := s.expose cx.core cx.grp.block
    match cx.blk.task with
    | none => s1.advance cx f.lx
    | some (owner, t, gen) =>
      ((s1.modB cx fun k => { k with committed := true }).modTask owner t fun e =>
        if e.gen = gen ∧ e.state = 3 then { e with state := 4 } else e).advance cx f.lx

/-- The core and entry that a task handle names on a die, when its generation is current (R229,
R232). -/
def State.taskOf (s : State) (die : Nat) (h : Word) : Option (Nat × Nat × Task) :=
  let c := 64 * die + 4 * bits h 19 16 + bits h 15 14
  let e := tget {} (s.core c).tasks (bits h 13 8)
  if bits h 7 0 = 0 ∧ e.gen = bits h 31 20 ∧ e.state ≠ 0 then some (c, bits h 13 8, e) else none

/-- The task status word (R232). -/
def Task.word (t : Task) : Word := BitVec.ofNat 32 (t.cause * 65536 + t.req * 256 + t.state)

/-- TSTAT (R232). -/
def execTstat (f : FmtE) (s : State) : Out :=
  s.issue fun cx =>
    (s.setS cx f.sd.toNat (match s.taskOf (dieOf cx.core) (cx.s f.sa.toNat) with
      | none => 0
      | some (_, _, e) => e.word)).advance cx f.lx

/-- TJOIN of a handle when it issues or looks again (R232). -/
def tjoinOn (f : FmtE) (h : Word) (s : State) (cx : Ctx) : Out :=
  match s.taskOf (dieOf cx.core) h with
  | none => (s.setS cx f.sd.toNat 0).advance cx f.lx
  | some (c, t, e) =>
    if 5 ≤ e.state then
      ((s.modTask c t Task.freed).setS cx f.sd.toNat e.word).advance cx f.lx
    else s.waitIn cx (.tjoin f) (.word h)

/-- TJOIN (R232). -/
def execTjoin (f : FmtE) (s : State) : Out :=
  s.issue fun cx =>
    match cx.sp.await with
    | .word h => tjoinOn f h s cx
    | _ => tjoinOn f (cx.s f.sa.toNat) s cx

end Sys2Proof.Machine
end

