-- ==== Sys2Proof/Machine/Tasks.lean ====
section
/-!
DEFINITION. Placement, stealing, leases and reports of tasks (R230 to R232, R237).
-/
namespace Sys2Proof.Machine

/-- The oldest queued task of a core, in spawn order (R230). -/
def Core.oldestTask (x : Core) : Option (Nat × Task) :=
  (x.tasks.filter fun kt => kt.2.state == 1).foldl (fun best kt =>
    match best with
    | none => some kt
    | some b => if kt.2.order < b.2.order then some kt else best) none

/-- The cores on which a task may be placed, in the order of R230. -/
def taskCores (c : Nat) : List Nat :=
  let k := clusterOf c * 4
  let d := dieOf c * 64
  c :: ((rangeFrom k 4).filter (· != c) ++ (rangeFrom d 64).filter fun x => clusterOf x != clusterOf c)

/-- A task started on a core as one group in a block of its own (R230). -/
def State.startTask (s : State) (c owner t : Nat) (e : Task) : Option State :=
  match s.handler? e.launch e.entry with
  | none => none
  | some h =>
    let b : Block :=
      { vf := e.vf, asid := e.asid, priv := e.priv, launch := e.launch, size := allocSize e.spad
        padN := e.padN, trapEntry := e.trapEntry, depth := e.depth, task := some (owner, t, e.gen) }
    s.startBlock c b [{ gid := 0, lanes := e.lanes, foot := e.foot, entry := h.entry, words := [e.arg] }]

/-- TASK_PLACEMENT (R230): the oldest queued task of a core starts on the first core with room. -/
def execTaskPlacement (core tslot : Nat) (s : State) : Out :=
  match (s.core core).oldestTask with
  | none => s.noEvent
  | some (t, e) =>
    if t ≠ tslot then s.noEvent
    else
      match (taskCores core).findSome? fun c => (s.startTask c core t e).map fun u => (c, u) with
      | none => s.noEvent
      | some (c, u) => .next (u.modTask core t fun e => { e with state := 3, thief := c, lease := 0 })

/-- TASK_STEAL (R237): a core of the same die with room and no eligible group steals the oldest queued task of
another core, whose record leaves under a lease; it looks in its own cluster first. Whether an interlock or a
branch delay holds back every group that has a packet is left free (R169, R211). -/
def execTaskSteal (thief victim : Nat) (s : State) : Out :=
  let queued (c : Nat) : Bool := (s.core c).oldestTask.isSome
  let nearer := clusterOf victim ≠ clusterOf thief ∧
    (rangeFrom (clusterOf thief * 4) 4).any fun c => c != thief && queued c
  match (s.core victim).oldestTask with
  | none => s.noEvent
  | some (t, e) =>
    let (b, s0) := if s.eligible thief then (Config.freeBool s.free, s.freshFree.2) else (true, s)
    if thief = victim ∨ dieOf thief ≠ dieOf victim ∨ nearer ∨ !b ∨
        !(s.core thief).hasRoom 1 e.foot (allocSize e.spad) then s0.noEvent
    else
      let (n, s1) := s0.freshUid
      let r : Stolen := { victim, tslot := t, gen := e.gen, lease := n + 1, task := e }
      .next ((s1.modTask victim t fun e =>
        { e with state := 2, thief, leaseAt := s.now, lease := n + 1 }).modCore victim fun x =>
          { x with outTasks := x.outTasks ++ [.record thief r] })

/-- A stolen record given up by its thief. -/
def State.dropStolen (s : State) (c : Nat) (r : Stolen) : State :=
  s.modCore c fun x => { x with stolen := x.stolen.filter fun q => decide (q.lease ≠ r.lease) }

/-- The acknowledgement of a task entry that has come to its victim: the thief, and the record (R237). -/
def Core.ackOf (x : Core) (tslot gen : Nat) : Option (Nat × Stolen) :=
  x.acks.find? fun a => decide (a.2.tslot = tslot ∧ a.2.gen = gen)

/-- An acknowledgement dealt with. -/
def State.dropAck (s : State) (c : Nat) (a : Nat × Stolen) : State :=
  s.modCore c fun x => { x with acks := x.acks.erase a }

/-- STEAL_ACKNOWLEDGEMENT (R237): the victim accepts the acknowledgement of the lease that stands, marks
the task running, and the thief starts it as soon as it has room; none is accepted once 65,536 cycles have
passed, and a late one gets a NACK, on which the thief discards its copy. -/
def execStealAcknowledgement (victim tslot gen : Nat) (s : State) : Out :=
  match (s.core victim).ackOf tslot gen with
  | none => s.noEvent
  | some (c, r) =>
    let e := tget {} (s.core victim).tasks tslot
    let s1 := s.dropAck victim (c, r)
    if e.gen = gen ∧ e.state = 2 ∧ e.lease = r.lease then
      if e.leaseAt + 65536 ≤ s.now then s.noEvent
      else
      match (s1.dropStolen c r).startTask c victim tslot r.task with
      | none => s.noEvent
      | some u => .next (u.modTask victim tslot fun e => { e with state := 3 })
    else .next (s1.modCore victim fun x => { x with outTasks := x.outTasks ++ [.nack c r] })

/-- LEASE_EXPIRY (R237): after 65,536 cycles without an accepted acknowledgement the record is queued at
its victim again, REQ unchanged. -/
def execLeaseExpiry (victim tslot : Nat) (s : State) : Out :=
  let e := tget {} (s.core victim).tasks tslot
  if e.state = 2 ∧ e.leaseAt + 65536 ≤ s.now then
    .next (s.modTask victim tslot fun e => { e with state := 1, lease := 0 })
  else s.noEvent

/-- TASK_COMPLETION_REPORT (R237): report number `report` of a stolen task's end reaches its victim, which
records it, or it is dropped when the table no longer holds the task. -/
def execTaskCompletionReport (report : Nat) (s : State) : Out :=
  match s.reports[report]? with
  | none => s.noEvent
  | some (owner, t, gen, code) =>
    let s1 := { s with reports := s.reports.eraseIdx report }
    let e := tget {} (s.core owner).tasks t
    if e.gen = gen ∧ (e.state = 3 ∨ e.state = 4) then
      .next (s1.closeTask owner t (decide (256 ≤ code)) (code % 256))
    else .next s1

end Sys2Proof.Machine
end

