-- ==== Sys2Proof/Machine/Vcvt.lean ====
section
/-!
DEFINITION. The conversions (major 0x0C, R115, R116).
-/
namespace Sys2Proof.Machine

/-- The element format of a lane type code (R38, R115). -/
def laneElem (ty : Nat) : ElemFmt :=
  match ty with
  | 0 => .int 32 true
  | 1 => .int 16 true
  | 2 => .float fp32
  | 3 => .float bf16
  | _ => .float fp16

/-- The destination type of a conversion (R115). -/
def cvtDt (f : FmtV) : Nat := f.imm8.toNat % 16

/-- The mode of destination element `e` of a conversion: its width selects the random field (R116). -/
def cvtMode (f : FmtV) (rnd : Word) (e : Nat) : RMode :=
  let w := (laneElem (cvtDt f)).width
  rmode f.rm.toNat (randomField w rnd e) w

/-- VCVT (R116): each element converted. -/
def execVcvt (f : FmtV) (s : State) : Out :=
  laneOp f s fun cx l =>
    buildElems (BitVec.ofNat 4 (cvtDt f)) fun e =>
      (laneElem (cvtDt f)).round (cvtMode f (f.opC cx l) e) (f.sat == 1)
        ((laneElem f.ty.toNat).decode (elemOf f.ty (f.opA cx l) e))

/-- VPACK (R116): element 0 from a and element 1 from b. From I32 with SAT = 0 the low 16 bits. -/
def execVpack (f : FmtV) (s : State) : Out :=
  laneOp f s fun cx l =>
    buildElems (BitVec.ofNat 4 (cvtDt f)) fun e =>
      let x := if e = 0 then f.opA cx l else f.opB cx l
      if f.ty = 0 ∧ f.sat = 0 then x.toNat
      else
        (laneElem (cvtDt f)).round (cvtMode f (f.opC cx l) e) (f.sat == 1)
          ((laneElem f.ty.toNat).decode x.toNat)

/-- VUNPK (R116): element EL of a, converted exactly. -/
def execVunpk (f : FmtV) (s : State) : Out :=
  laneOp f s fun cx l =>
    BitVec.ofNat 32 ((laneElem (cvtDt f)).round .rne false
      ((laneElem f.ty.toNat).decode (elemOf f.ty (f.opA cx l) (f.imm8.toNat / 16 % 2))))

end Sys2Proof.Machine
end

