-- ==== Sys2Proof/Machine/Vxf.lean ====
section
/-!
DEFINITION. The VXF instructions (major 0x0B, R113, R114): the exact function value rounded once.
-/
namespace Sys2Proof.Machine

/-- A VXF instruction that rounds RNE. An operand whose function value no precision of
Float.precisions separates from a rounding boundary gives a free value (log entry 7). -/
def vxf (f : FmtV) (s : State) (g : FVal → FRes) : Out :=
  let w := Config.freeWord s.free
  laneOp f { s with free := s.free + 1 } fun cx l =>
    let fm := laneFmt f.ty
    buildElems f.ty fun e =>
      (fm.ofRes (f.sat == 1) (g (fm.decode (elemOf f.ty (f.opA cx l) e)))).getD (elemOf f.ty w e)

/-- 1 as an exact value. -/
def FVal.one : FVal := .fin false 1 1 0

/-- VRCP (R113, R114): 1 / a. -/
def execVrcp (f : FmtV) (s : State) : Out := vfp f s fun _ a _ _ => FVal.one.div a

/-- VRSQ (R113, R114): 1 / √a. -/
def execVrsq (f : FmtV) (s : State) : Out := vfp f s fun _ a _ _ => a.rsqrt

/-- VSQRT (R113, R114): √a, under RM. -/
def execVsqrt (f : FmtV) (s : State) : Out := vfp f s fun _ a _ _ => a.sqrt

/-- VDIV (R113, R114): a / b, under RM. -/
def execVdiv (f : FmtV) (s : State) : Out := vfp f s fun _ a b _ => a.div b

/-- VEXP2 (R113, R114): 2^a. -/
def execVexp2 (f : FmtV) (s : State) : Out := vxf f s fexp2

/-- VLOG2 (R113, R114): log₂ a. -/
def execVlog2 (f : FmtV) (s : State) : Out := vxf f s flog2

/-- VSIN (R113, R114): sin (π a). -/
def execVsin (f : FmtV) (s : State) : Out := vxf f s fsin

/-- VCOS (R113, R114): cos (π a). -/
def execVcos (f : FmtV) (s : State) : Out := vxf f s fcos

/-- VTANH (R113, R114): tanh a. -/
def execVtanh (f : FmtV) (s : State) : Out := vxf f s ftanh

/-- VSIGM (R113, R114): 1 / (1 + e^−a). -/
def execVsigm (f : FmtV) (s : State) : Out := vxf f s fsigm

end Sys2Proof.Machine
end

