-- ==== Sys2Proof/Machine/Dispatch.lean ====
section
/-!
DEFINITION. The meaning of every instruction: one arm for each constructor of Instr.
-/
namespace Sys2Proof.Machine

def exec (i : Instr) (s : State) : Host.Outcome State Fault Refusal :=
  match i with
  | .nop f => Sys2Proof.Machine.execNop f s
  | .bkpt f => Sys2Proof.Machine.execBkpt f s
  | .trap f => Sys2Proof.Machine.execTrap f s
  | .tret f => Sys2Proof.Machine.execTret f s
  | .yield f => Sys2Proof.Machine.execYield f s
  | .icinv f => Sys2Proof.Machine.execIcinv f s
  | .sread f => Sys2Proof.Machine.execSread f s
  | .swrite f => Sys2Proof.Machine.execSwrite f s
  | .bra f => Sys2Proof.Machine.execBra f s
  | .bsc f => Sys2Proof.Machine.execBsc f s
  | .bsz f => Sys2Proof.Machine.execBsz f s
  | .bdiv f => Sys2Proof.Machine.execBdiv f s
  | .bdivx f => Sys2Proof.Machine.execBdivx f s
  | .call f => Sys2Proof.Machine.execCall f s
  | .ret f => Sys2Proof.Machine.execRet f s
  | .jmpi f => Sys2Proof.Machine.execJmpi f s
  | .rjset f => Sys2Proof.Machine.execRjset f s
  | .rjoin f => Sys2Proof.Machine.execRjoin f s
  | .rjpeek f => Sys2Proof.Machine.execRjpeek f s
  | .bar f => Sys2Proof.Machine.execBar f s
  | .exit f => Sys2Proof.Machine.execExit f s
  | .sadd f => Sys2Proof.Machine.execSadd f s
  | .ssub f => Sys2Proof.Machine.execSsub f s
  | .smul f => Sys2Proof.Machine.execSmul f s
  | .smulh f => Sys2Proof.Machine.execSmulh f s
  | .smulhu f => Sys2Proof.Machine.execSmulhu f s
  | .sand f => Sys2Proof.Machine.execSand f s
  | .sor f => Sys2Proof.Machine.execSor f s
  | .sxor f => Sys2Proof.Machine.execSxor f s
  | .sandn f => Sys2Proof.Machine.execSandn f s
  | .sshl f => Sys2Proof.Machine.execSshl f s
  | .sshr f => Sys2Proof.Machine.execSshr f s
  | .ssar f => Sys2Proof.Machine.execSsar f s
  | .srot f => Sys2Proof.Machine.execSrot f s
  | .smin f => Sys2Proof.Machine.execSmin f s
  | .smax f => Sys2Proof.Machine.execSmax f s
  | .sminu f => Sys2Proof.Machine.execSminu f s
  | .smaxu f => Sys2Proof.Machine.execSmaxu f s
  | .smov f => Sys2Proof.Machine.execSmov f s
  | .sliShort f => Sys2Proof.Machine.execSliShort f s
  | .sliLong f => Sys2Proof.Machine.execSliLong f s
  | .slih f => Sys2Proof.Machine.execSlih f s
  | .sceq f => Sys2Proof.Machine.execSceq f s
  | .scne f => Sys2Proof.Machine.execScne f s
  | .sclt f => Sys2Proof.Machine.execSclt f s
  | .scle f => Sys2Proof.Machine.execScle f s
  | .scltu f => Sys2Proof.Machine.execScltu f s
  | .scleu f => Sys2Proof.Machine.execScleu f s
  | .ssel f => Sys2Proof.Machine.execSsel f s
  | .spopc f => Sys2Proof.Machine.execSpopc f s
  | .sclz f => Sys2Proof.Machine.execSclz f s
  | .sffs f => Sys2Proof.Machine.execSffs f s
  | .kand f => Sys2Proof.Machine.execKand f s
  | .kor f => Sys2Proof.Machine.execKor f s
  | .kxor f => Sys2Proof.Machine.execKxor f s
  | .kandn f => Sys2Proof.Machine.execKandn f s
  | .knot f => Sys2Proof.Machine.execKnot f s
  | .kmov f => Sys2Proof.Machine.execKmov f s
  | .kfroms f => Sys2Proof.Machine.execKfroms f s
  | .ktos f => Sys2Proof.Machine.execKtos f s
  | .kpopc f => Sys2Proof.Machine.execKpopc f s
  | .kfirst f => Sys2Proof.Machine.execKfirst f s
  | .vadd f => Sys2Proof.Machine.execVadd f s
  | .vsub f => Sys2Proof.Machine.execVsub f s
  | .vmul f => Sys2Proof.Machine.execVmul f s
  | .vmulh f => Sys2Proof.Machine.execVmulh f s
  | .vmulhu f => Sys2Proof.Machine.execVmulhu f s
  | .vmad f => Sys2Proof.Machine.execVmad f s
  | .vmin f => Sys2Proof.Machine.execVmin f s
  | .vmax f => Sys2Proof.Machine.execVmax f s
  | .vminu f => Sys2Proof.Machine.execVminu f s
  | .vmaxu f => Sys2Proof.Machine.execVmaxu f s
  | .vabs f => Sys2Proof.Machine.execVabs f s
  | .vneg f => Sys2Proof.Machine.execVneg f s
  | .vsadd f => Sys2Proof.Machine.execVsadd f s
  | .vssub f => Sys2Proof.Machine.execVssub f s
  | .vsaddu f => Sys2Proof.Machine.execVsaddu f s
  | .vssubu f => Sys2Proof.Machine.execVssubu f s
  | .vand f => Sys2Proof.Machine.execVand f s
  | .vor f => Sys2Proof.Machine.execVor f s
  | .vxor f => Sys2Proof.Machine.execVxor f s
  | .vandn f => Sys2Proof.Machine.execVandn f s
  | .vnot f => Sys2Proof.Machine.execVnot f s
  | .vshl f => Sys2Proof.Machine.execVshl f s
  | .vshr f => Sys2Proof.Machine.execVshr f s
  | .vsar f => Sys2Proof.Machine.execVsar f s
  | .vrot f => Sys2Proof.Machine.execVrot f s
  | .vclz f => Sys2Proof.Machine.execVclz f s
  | .vpopc f => Sys2Proof.Machine.execVpopc f s
  | .vbrev f => Sys2Proof.Machine.execVbrev f s
  | .vbfx f => Sys2Proof.Machine.execVbfx f s
  | .vbfi f => Sys2Proof.Machine.execVbfi f s
  | .vsel f => Sys2Proof.Machine.execVsel f s
  | .vmov f => Sys2Proof.Machine.execVmov f s
  | .vmovs f => Sys2Proof.Machine.execVmovs f s
  | .vceq f => Sys2Proof.Machine.execVceq f s
  | .vcne f => Sys2Proof.Machine.execVcne f s
  | .vclt f => Sys2Proof.Machine.execVclt f s
  | .vcle f => Sys2Proof.Machine.execVcle f s
  | .vcltu f => Sys2Proof.Machine.execVcltu f s
  | .vcleu f => Sys2Proof.Machine.execVcleu f s
  | .vfceq f => Sys2Proof.Machine.execVfceq f s
  | .vfclt f => Sys2Proof.Machine.execVfclt f s
  | .vfcle f => Sys2Proof.Machine.execVfcle f s
  | .vfcun f => Sys2Proof.Machine.execVfcun f s
  | .vfclass f => Sys2Proof.Machine.execVfclass f s
  | .vfadd f => Sys2Proof.Machine.execVfadd f s
  | .vfsub f => Sys2Proof.Machine.execVfsub f s
  | .vfmul f => Sys2Proof.Machine.execVfmul f s
  | .vfma f => Sys2Proof.Machine.execVfma f s
  | .vfms f => Sys2Proof.Machine.execVfms f s
  | .vfnma f => Sys2Proof.Machine.execVfnma f s
  | .vfnms f => Sys2Proof.Machine.execVfnms f s
  | .vfmin f => Sys2Proof.Machine.execVfmin f s
  | .vfmax f => Sys2Proof.Machine.execVfmax f s
  | .vfabs f => Sys2Proof.Machine.execVfabs f s
  | .vfneg f => Sys2Proof.Machine.execVfneg f s
  | .vfcpys f => Sys2Proof.Machine.execVfcpys f s
  | .vfrint f => Sys2Proof.Machine.execVfrint f s
  | .vrcp f => Sys2Proof.Machine.execVrcp f s
  | .vrsq f => Sys2Proof.Machine.execVrsq f s
  | .vsqrt f => Sys2Proof.Machine.execVsqrt f s
  | .vdiv f => Sys2Proof.Machine.execVdiv f s
  | .vexp2 f => Sys2Proof.Machine.execVexp2 f s
  | .vlog2 f => Sys2Proof.Machine.execVlog2 f s
  | .vsin f => Sys2Proof.Machine.execVsin f s
  | .vcos f => Sys2Proof.Machine.execVcos f s
  | .vtanh f => Sys2Proof.Machine.execVtanh f s
  | .vsigm f => Sys2Proof.Machine.execVsigm f s
  | .vcvt f => Sys2Proof.Machine.execVcvt f s
  | .vpack f => Sys2Proof.Machine.execVpack f s
  | .vunpk f => Sys2Proof.Machine.execVunpk f s
  | .qswapx f => Sys2Proof.Machine.execQswapx f s
  | .qswapy f => Sys2Proof.Machine.execQswapy f s
  | .qswapd f => Sys2Proof.Machine.execQswapd f s
  | .qbcast f => Sys2Proof.Machine.execQbcast f s
  | .vshfl f => Sys2Proof.Machine.execVshfl f s
  | .vshflup f => Sys2Proof.Machine.execVshflup f s
  | .vshfldn f => Sys2Proof.Machine.execVshfldn f s
  | .vbcast f => Sys2Proof.Machine.execVbcast f s
  | .vredu f => Sys2Proof.Machine.execVredu f s
  | .vscan f => Sys2Proof.Machine.execVscan f s
  | .vballot f => Sys2Proof.Machine.execVballot f s
  | .vcomp f => Sys2Proof.Machine.execVcomp f s
  | .lds f => Sys2Proof.Machine.execLds f s
  | .sts f => Sys2Proof.Machine.execSts f s
  | .ldu f => Sys2Proof.Machine.execLdu f s
  | .stu f => Sys2Proof.Machine.execStu f s
  | .ldres f => Sys2Proof.Machine.execLdres f s
  | .stcnd f => Sys2Proof.Machine.execStcnd f s
  | .stcmp f => Sys2Proof.Machine.execStcmp f s
  | .aadd f => Sys2Proof.Machine.execAadd f s
  | .asub f => Sys2Proof.Machine.execAsub f s
  | .amin f => Sys2Proof.Machine.execAmin f s
  | .amax f => Sys2Proof.Machine.execAmax f s
  | .aminu f => Sys2Proof.Machine.execAminu f s
  | .amaxu f => Sys2Proof.Machine.execAmaxu f s
  | .aand f => Sys2Proof.Machine.execAand f s
  | .aor f => Sys2Proof.Machine.execAor f s
  | .axor f => Sys2Proof.Machine.execAxor f s
  | .axchg f => Sys2Proof.Machine.execAxchg f s
  | .acas f => Sys2Proof.Machine.execAcas f s
  | .afadd f => Sys2Proof.Machine.execAfadd f s
  | .fence f => Sys2Proof.Machine.execFence f s
  | .fseal f => Sys2Proof.Machine.execFseal f s
  | .funseal f => Sys2Proof.Machine.execFunseal f s
  | .push f => Sys2Proof.Machine.execPush f s
  | .bclose f => Sys2Proof.Machine.execBclose f s
  | .bwait f => Sys2Proof.Machine.execBwait f s
  | .bstat f => Sys2Proof.Machine.execBstat f s
  | .waitc f => Sys2Proof.Machine.execWaitc f s
  | .resid f => Sys2Proof.Machine.execResid f s
  | .send f => Sys2Proof.Machine.execSend f s
  | .sendv f => Sys2Proof.Machine.execSendv f s
  | .recv f => Sys2Proof.Machine.execRecv f s
  | .recvt f => Sys2Proof.Machine.execRecvt f s
  | .recvv f => Sys2Proof.Machine.execRecvv f s
  | .amsg f => Sys2Proof.Machine.execAmsg f s
  | .spawn f => Sys2Proof.Machine.execSpawn f s
  | .commit f => Sys2Proof.Machine.execCommit f s
  | .tjoin f => Sys2Proof.Machine.execTjoin f s
  | .tstat f => Sys2Proof.Machine.execTstat f s
  | .hgive f => Sys2Proof.Machine.execHgive f s
  | .hgiveMake f => Sys2Proof.Machine.execHgiveMake f s
  | .htake f => Sys2Proof.Machine.execHtake f s
  | .htaket f => Sys2Proof.Machine.execHtaket f s
  | .hstat f => Sys2Proof.Machine.execHstat f s
  | .hdrop f => Sys2Proof.Machine.execHdrop f s
  | .mloadw f => Sys2Proof.Machine.execMloadw f s
  | .mswap f => Sys2Proof.Machine.execMswap f s
  | .mloop f => Sys2Proof.Machine.execMloop f s
  | .mdrain f => Sys2Proof.Machine.execMdrain f s
  | .mzero f => Sys2Proof.Machine.execMzero f s
  | .mstat f => Sys2Proof.Machine.execMstat f s
  | .cvjoin f => Sys2Proof.Machine.execCvjoin f s
  | .cvleave f => Sys2Proof.Machine.execCvleave f s
  | .copy core seq => Sys2Proof.Machine.execCopy core seq s
  | .copy2d core seq => Sys2Proof.Machine.execCopy2d core seq s
  | .fill core seq => Sys2Proof.Machine.execFill core seq s
  | .gather core seq => Sys2Proof.Machine.execGather core seq s
  | .scatter core seq => Sys2Proof.Machine.execScatter core seq s
  | .atom core seq => Sys2Proof.Machine.execAtom core seq s
  | .reduce core seq => Sys2Proof.Machine.execReduce core seq s
  | .allred core seq => Sys2Proof.Machine.execAllred core seq s
  | .bcast core seq => Sys2Proof.Machine.execBcast core seq s
  | .pagereq core seq => Sys2Proof.Machine.execPagereq core seq s
  | .tlbinv core seq => Sys2Proof.Machine.execTlbinv core seq s
  | .rcopy core seq => Sys2Proof.Machine.execRcopy core seq s
  | .commandCompletion core seq => Sys2Proof.Machine.execCommandCompletion core seq s
  | .storePerform core slot => Sys2Proof.Machine.execStorePerform core slot s
  | .rejoinRelease core slot j => Sys2Proof.Machine.execRejoinRelease core slot j s
  | .barrierRelease core block => Sys2Proof.Machine.execBarrierRelease core block s
  | .fairnessDue core slot split => Sys2Proof.Machine.execFairnessDue core slot split s
  | .paddockSwap core slot => Sys2Proof.Machine.execPaddockSwap core slot s
  | .reservationGraceEnd core slot split => Sys2Proof.Machine.execReservationGraceEnd core slot split s
  | .softErrorRollback core block => Sys2Proof.Machine.execSoftErrorRollback core block s
  | .matrixTrapDelivery core slot => Sys2Proof.Machine.execMatrixTrapDelivery core slot s
  | .taskPlacement core tslot => Sys2Proof.Machine.execTaskPlacement core tslot s
  | .taskSteal thief victim => Sys2Proof.Machine.execTaskSteal thief victim s
  | .stealAcknowledgement victim tslot gen => Sys2Proof.Machine.execStealAcknowledgement victim tslot gen s
  | .leaseExpiry victim tslot => Sys2Proof.Machine.execLeaseExpiry victim tslot s
  | .launchTake fn queue => Sys2Proof.Machine.execLaunchTake fn queue s
  | .gangPlacement launch => Sys2Proof.Machine.execGangPlacement launch s
  | .launchEnd launch => Sys2Proof.Machine.execLaunchEnd launch s
  | .messageArrival core => Sys2Proof.Machine.execMessageArrival core s
  | .receiveFill core slot chan => Sys2Proof.Machine.execReceiveFill core slot chan s
  | .nackArrival core => Sys2Proof.Machine.execNackArrival core s
  | .amsgArrival core => Sys2Proof.Machine.execAmsgArrival core s
  | .handlerStart core => Sys2Proof.Machine.execHandlerStart core s
  | .convoyAnswer die => Sys2Proof.Machine.execConvoyAnswer die s
  | .boundUpdate die cslot member => Sys2Proof.Machine.execBoundUpdate die cslot member s
  | .unhitchTimeout core slot => Sys2Proof.Machine.execUnhitchTimeout core slot s
  | .foldReadRequest die stop => Sys2Proof.Machine.execFoldReadRequest die stop s
  | .dramDataArrival die stop entry => Sys2Proof.Machine.execDramDataArrival die stop entry s
  | .stopWrite die stop => Sys2Proof.Machine.execStopWrite die stop s
  | .stopAtomic die stop => Sys2Proof.Machine.execStopAtomic die stop s
  | .unitTranslation die unit => Sys2Proof.Machine.execUnitTranslation die unit s
  | .pageWalkComplete die walk => Sys2Proof.Machine.execPageWalkComplete die walk s
  | .globalSealRequest die request => Sys2Proof.Machine.execGlobalSealRequest die request s
  | .globalUnsealRequest die request => Sys2Proof.Machine.execGlobalUnsealRequest die request s
  | .replicaCopy die pa target => Sys2Proof.Machine.execReplicaCopy die pa target s
  | .outputPortGrant die router port => Sys2Proof.Machine.execOutputPortGrant die router port s
  | .headPromotion die router inport vc => Sys2Proof.Machine.execHeadPromotion die router inport vc s
  | .mesharbWrite die value => Sys2Proof.Machine.execMesharbWrite die value s
  | .mesharbApply die => Sys2Proof.Machine.execMesharbApply die s
  | .slotcmd die value => Sys2Proof.Machine.execSlotcmd die value s
  | .slotTableReplace die => Sys2Proof.Machine.execSlotTableReplace die s
  | .passGrant cluster => Sys2Proof.Machine.execPassGrant cluster s
  | .loopPriorityAging cluster entry => Sys2Proof.Machine.execLoopPriorityAging cluster entry s
  | .matrixEntryComplete cluster entry => Sys2Proof.Machine.execMatrixEntryComplete cluster entry s
  | .drainPerform cluster entry => Sys2Proof.Machine.execDrainPerform cluster entry s
  | .zeroPerform cluster entry => Sys2Proof.Machine.execZeroPerform cluster entry s
  | .planeLoad cluster entry => Sys2Proof.Machine.execPlaneLoad cluster entry s
  | .planeSwap cluster entry => Sys2Proof.Machine.execPlaneSwap cluster entry s
  | .operandFault cluster entry => Sys2Proof.Machine.execOperandFault cluster entry s
  | .spareRowMismatch cluster entry column outcome => Sys2Proof.Machine.execSpareRowMismatch cluster entry column outcome s
  | .accumulatorError cluster entry row => Sys2Proof.Machine.execAccumulatorError cluster entry row s
  | .engineService cluster value => Sys2Proof.Machine.execEngineService cluster value s
  | .qwpDoorbell fn queue value => Sys2Proof.Machine.execQwpDoorbell fn queue value s
  | .registerWrite fn offset size value => Sys2Proof.Machine.execRegisterWrite fn offset size value s
  | .functionLevelReset vf => Sys2Proof.Machine.execFunctionLevelReset vf s
  | .ckptSave value => Sys2Proof.Machine.execCkptSave value s
  | .ckptRestore value => Sys2Proof.Machine.execCkptRestore value s
  | .quiesceTimeout => Sys2Proof.Machine.execQuiesceTimeout s
  | .checkpointDone => Sys2Proof.Machine.execCheckpointDone s
  | .resume value => Sys2Proof.Machine.execResume value s
  | .replan value => Sys2Proof.Machine.execReplan value s
  | .periodicReplan die plan => Sys2Proof.Machine.execPeriodicReplan die plan s
  | .containClear vf value => Sys2Proof.Machine.execContainClear vf value s
  | .fixlat die value => Sys2Proof.Machine.execFixlat die value s
  | .clrcnt die value => Sys2Proof.Machine.execClrcnt die value s
  | .linkRetrain link value => Sys2Proof.Machine.execLinkRetrain link value s
  | .ctxSave value => Sys2Proof.Machine.execCtxSave value s
  | .ctxRestore value => Sys2Proof.Machine.execCtxRestore value s
  | .ctxDiscard value => Sys2Proof.Machine.execCtxDiscard value s
  | .dbgClaim core value => Sys2Proof.Machine.execDbgClaim core value s
  | .dbgRelease core value => Sys2Proof.Machine.execDbgRelease core value s
  | .dbgStepOne core value => Sys2Proof.Machine.execDbgStepOne core value s
  | .dbgStepAll core value => Sys2Proof.Machine.execDbgStepAll core value s
  | .dbgMove core value => Sys2Proof.Machine.execDbgMove core value s
  | .boot => Sys2Proof.Machine.execBoot s
  | .spdmGetCertificate => Sys2Proof.Machine.execSpdmGetCertificate s
  | .spdmGetMeasurements nonce => Sys2Proof.Machine.execSpdmGetMeasurements nonce s
  | .corePowerGate core => Sys2Proof.Machine.execCorePowerGate core s
  | .instructionFetch core asid block => Sys2Proof.Machine.execInstructionFetch core asid block s
  | .fetchReturn core fetch => Sys2Proof.Machine.execFetchReturn core fetch s
  | .hostReadCompletion request poison => Sys2Proof.Machine.execHostReadCompletion request poison s
  | .linkFrameArrival link good => Sys2Proof.Machine.execLinkFrameArrival link good s
  | .linkDown link => Sys2Proof.Machine.execLinkDown link s
  | .keyRenewal link => Sys2Proof.Machine.execKeyRenewal link s
  | .fabricForward packet => Sys2Proof.Machine.execFabricForward packet s
  | .contributionArrival contribution => Sys2Proof.Machine.execContributionArrival contribution s
  | .contributorTimeout core seq => Sys2Proof.Machine.execContributorTimeout core seq s
  | .combinerTimeout entry => Sys2Proof.Machine.execCombinerTimeout entry s
  | .rcopyUnitArrival unit => Sys2Proof.Machine.execRcopyUnitArrival unit s
  | .illegalWord reason => Sys2Proof.Machine.execIllegalWord reason s
  | .resultArrival result => Sys2Proof.Machine.execResultArrival result s
  | .taskCompletionReport report => Sys2Proof.Machine.execTaskCompletionReport report s
  | .hostWriteCompletion request => Sys2Proof.Machine.execHostWriteCompletion request s
  | .linkTrained link roundTrip keys => Sys2Proof.Machine.execLinkTrained link roundTrip keys s
  | .ideKm vf up => Sys2Proof.Machine.execIdeKm vf up s
  | .powerStateChange d3hot => Sys2Proof.Machine.execPowerStateChange d3hot s
  | .modulePowerLimit limit => Sys2Proof.Machine.execModulePowerLimit limit s
  | .ckptRestoreDone => Sys2Proof.Machine.execCkptRestoreDone s
  | .functionLevelResetDone vf => Sys2Proof.Machine.execFunctionLevelResetDone vf s

end Sys2Proof.Machine
end

