-- ==== Sys2Proof/Machine/Issue.lean ====
section
/-!
DEFINITION. The issue decision of a core: co-issue classes, the choice of block, group and splits, packets
of one and two instructions, steps of a debugger, and the second try of a waiting instruction (R95, R131,
R147 to R149, R168, R206, R211, R212).
-/
namespace Sys2Proof.Machine

/-! ### What an instruction may share a packet with (R147) -/

/-- The co-issue classes. -/
inductive CoIssue where
  | lane
  | scalar
  | memory
  | alone
deriving DecidableEq, Repr

/-- The class of an instruction, by its major. -/
def coIssue (i : Instr) : CoIssue :=
  match opcode i with
  | none => .alone
  | some (maj, _) =>
    if maj = 4 then .scalar
    else if maj = 5 ∨ (8 ≤ maj ∧ maj ≤ 13) then .lane
    else if 16 ≤ maj ∧ maj ≤ 18 then .memory
    else .alone

/-- Whether two instructions may share a packet. -/
def mayShare (i j : Instr) : Bool :=
  coIssue i != .alone && coIssue j != .alone && !(coIssue i == .memory && coIssue j == .memory)

/-! ### Packets (R147, R149) -/

/-- What a core issues: a block, a group and the splits of a packet, the primary first. -/
structure Pick where
  block : Nat
  slot : Nat
  first : Split
  second : Option Split := none
deriving DecidableEq, Repr

/-- The instruction of a split, when its word is one. -/
def State.instrOf? (s : State) (c : Nat) (g : Group) (p : Split) : Option Instr :=
  match s.seen c g p with
  | .instr i => some i
  | _ => none

/-- Whether two splits of a group may share a packet (R147). -/
def State.pairs (s : State) (c : Nat) (g : Group) (p q : Split) : Bool :=
  match s.instrOf? c g p, s.instrOf? c g q with
  | some i, some j => mayShare i j
  | _, _ => false

/-- The packet that a group forms (R149). -/
def State.packet (s : State) (c slot : Nat) (g : Group) (held : List (Nat × Nat)) (pair : Bool) :
    Option Pick :=
  let l := if s.stopped c slot g then [] else s.candidates c slot g held
  match g.firstOf (s.cycle c) l with
  | none => none
  | some p =>
    let others := l.filter fun q => q.id != p.id && s.pairs c g p q
    some { block := g.block, slot := slot, first := p
           second := if pair && !g.claimed then g.firstOf (s.cycle c) others else none }

/-- The packet of the most urgent eligible group of a block (R212). -/
def State.packetOf (s : State) (c b : Nat) (heldG : List Nat) (heldS : List (Nat × Nat)) (pair : Bool) :
    Option Pick :=
  ((s.core c).groups.foldl (fun best kg =>
    if kg.2.block ≠ b ∨ heldG.contains kg.1 then best
    else
      match s.packet c kg.1 kg.2 heldS pair, best with
      | none, _ => best
      | some k, none => some (kg.2.rank, k)
      | some k, some (r, _) => if kg.2.rank < r then some (kg.2.rank, k) else best)
    (none : Option (Nat × Pick))).map (·.2)

/-- What a core issues next: blocks in round-robin order from the one after the last chosen, at most two
packets in a cycle (R211, R212). -/
def State.pick (s : State) (c : Nat) (heldG : List Nat) (heldS : List (Nat × Nat)) (pair : Bool) :
    Option Pick :=
  if s.d3hot ∨ ((s.core c).issueAt = s.now ∧ 2 ≤ (s.core c).issues) then none
  else (rangeFrom 1 16).findSome? fun k => s.packetOf c (((s.core c).rr + k) % 16) heldG heldS pair

/-! ### The packet (R95, R148) -/

/-- The machine as an instruction of a split of core `c` sees it: State.cur names the split, and `pre`
holds the registers from before the packet when another instruction of it came first. -/
def State.asIssuer (s : State) (c slot id : Nat) (pre : Option GRegs) : State :=
  { s with cur := { core := c, slot := slot, split := id }, mark := .done, pre := pre }

/-- What stands at a PC executed. -/
def Fetched.run (r : Fetched) (s : State) : Out :=
  match r with
  | .missing _ => s.heldAt
  | .failed n => if n = 1 then fetchPoison s else execIllegalWord n s
  | .illegal n => execIllegalWord n s
  | .instr i => exec i s

/-- A split after it has issued at a cycle: AGE and its counts; any other split is no longer held by
YIELD (R131, R143, R150). `ids` are the splits of the packet, and `h` says that they are a handler's. -/
def Split.hasIssued (p : Split) (ids : List Nat) (h : Bool) (cycle now : Nat) : Split :=
  if ids.contains p.id ∧ p.handler = h then
    { p with age := BitVec.ofNat 32 cycle, idle := 0, due := false, grace := 0
             yielded := if p.yielded = some now then p.yielded else none }
  else { p with yielded := none }

/-- A packet of a group started: PROG counts it and its splits have issued (R89, R131, R143, R211). -/
def Group.counted (g : Group) (ids : List Nat) (h : Bool) (cycle now : Nat) : Group :=
  { g with prog := g.prog + 1, issuedAt := some now
           splits := g.splits.map fun p => p.hasIssued ids h cycle now }

/-- A core that has started a packet of a block: the block is the last chosen (R211, R212). -/
def Core.chose (x : Core) (block now : Nat) : Core :=
  { x with rr := block, issueAt := now, issues := if x.issueAt = now then x.issues + 1 else 1 }

/-- Whether the last instruction issued: it had its effect or waits. -/
def State.didIssue (s : State) : Bool := s.mark == .done || s.mark == .waiting

/-- A packet counted: one whose instructions issued in PROG, one that trapped as the choice of its block
alone, one that was held not at all. -/
def State.count (s : State) (c : Nat) (k : Pick) (ids : List Nat) : State :=
  if s.mark == .held then s
  else
    (if s.didIssue then s.modGroup c k.slot fun g => g.counted ids k.first.handler (s.cycle c) s.now
      else s.modGroup c k.slot fun g => { g with issuedAt := some s.now }).modCore c fun x => x.chose k.block s.now

/-- A packet of one instruction. -/
def State.runOne (s : State) (c : Nat) (k : Pick) (g : Group) : Out :=
  match (s.seen c g k.first).run (s.asIssuer c k.slot k.first.id none) with
  | .next t => .next (t.count c k [k.first.id])
  | o => o

/-- A packet of two instructions, the lower id first: both take effect, or the trap of the lower-id split
that traps, or nothing when one is held (R148). -/
def State.runTwo (s : State) (c : Nat) (k : Pick) (g : Group) (a b : Split) : Out :=
  match (s.seen c g a).run (s.asIssuer c k.slot a.id none) with
  | .next t =>
    if t.mark = .trapped then .next (t.count c k [])
    else if t.mark = .held then s.heldAt
    else
      match (s.seen c g b).run (t.asIssuer c k.slot b.id (some g.regs)) with
      | .next u =>
        if u.mark = .trapped then
          match (s.seen c g b).run (s.asIssuer c k.slot b.id none) with
          | .next v => .next (v.count c k [])
          | o => o
        else if u.mark = .held then s.heldAt
        else .next (u.count c k [a.id, b.id])
      | o => o
  | o => o

/-- The steps that a debugger still waits for: of splits that live and are ready behind its hold. -/
def State.dropSteps (s : State) (c slot : Nat) : State :=
  match s.group? c slot with
  | none => s.modCore c fun x => { x with steps := [] }
  | some g => (s.modCore c fun x =>
      { x with steps := (x.steps.drop 1).filter fun i => g.running.any fun p => decide (p.id = i ∧ p.eff = 0) }).readyStep
        c slot

/-- A step of a claimed group: the split is let go for one packet of its own, then every split is held
again, and the debugger hears of the last step (R168). -/
def State.runStep (s : State) (c : Nat) (k : Pick) (g : Group) : Out :=
  let s1 := s.modGroup c k.slot fun y =>
    { y with splits := y.splits.map fun p => if g.issues k.first.id p then p.letGo else p }
  match s1.runOne c k g with
  | .next t =>
    if t.mark = .held then s.heldAt
    else
      let t1 := (t.holdAll c k.slot).dropSteps c k.slot
      .next (if (t1.core c).steps = [] then t1.stepOver c k.slot k.first.id else t1)
  | o => o

/-- One packet run. -/
def State.runPick (s : State) (c : Nat) (k : Pick) : Out :=
  match s.group? c k.slot with
  | none => s.heldAt
  | some g =>
    if g.claimed then s.runStep c k g
    else
      match k.second with
      | none => s.runOne c k g
      | some q => if q.id < k.first.id then s.runTwo c k g q k.first else s.runTwo c k g k.first q

/-- One issue decision of a core (R211). -/
def State.issueOn (s : State) (c : Nat) (heldG : List Nat) (heldS : List (Nat × Nat)) (pair : Bool) : Out :=
  match s.pick c heldG heldS pair with
  | none => s.heldAt
  | some k => s.runPick c k

/-- A split that an event of this cycle has made ready (R149, R150). -/
def Split.fresh (p : Split) (now : Nat) : Split :=
  { p with idle := 0, due := false, grace := 0, readyAt := now + 1 }

/-- A split that waits in an instruction tries again to complete it; its fairness count starts anew when it
does (R143, R149). -/
def State.pollOn (s : State) (c slot id : Nat) : Out :=
  match s.group? c slot with
  | none => s.heldAt
  | some g =>
    match g.split? id with
    | none => s.heldAt
    | some p =>
      match p.waitI with
      | none => s.heldAt
      | some i =>
        if decide (p.wait = 3) && g.trap.pending.isNone && (s.block? c g.block).any fun k => k.rolling.isNone then
          match exec i (s.asIssuer c slot id none) with
          | .next t =>
            if t.mark = .done then
              .next ((t.modGroup c slot fun y =>
                { y with splits := y.splits.map fun q => if y.issues id q then q.fresh s.now else q }).moveIn c 62)
            else .next t
          | o => o
        else s.heldAt

end Sys2Proof.Machine
end

