-- ==== Sys2Proof/Machine/RegRead.lean ====
section
/-!
DEFINITION. The registers that software reads (R372, R377, R381, R385, R387 to R389), with the tables and
counters of a die (R203, R244, R276, R284, R328, R349, R350, R353). A reserved field, and an offset that no
table names, reads as 0 (R15, R387).
-/
namespace Sys2Proof.Machine

/-- The half of a 64-bit register that a 4-byte read at an offset delivers. -/
def halfAt (v : DWord) (off : Nat) : Word := if off % 8 = 4 then v.extractLsb' 32 32 else v.extractLsb' 0 32

/-- A read of a launch queue's registers (R372). -/
def State.queueRead (s : State) (f q r : Nat) : Word :=
  let x := (s.fn f).queue q
  match r with
  | 0x00 => halfAt x.base 0
  | 0x04 => halfAt x.base 4
  | 0x08 => BitVec.ofNat 32 x.size
  | 0x10 => x.qwp
  | 0x14 => x.qrp
  | 0x18 => BitVec.ofNat 32 (x.enable.toNat + 2 * x.qerr.toNat)
  | _ => 0

/-- A read of an event queue's registers (R377). -/
def State.eventRead (s : State) (f r : Nat) : Word :=
  let x := s.fn f
  match r with
  | 0x00 => halfAt x.evbase 0
  | 0x04 => halfAt x.evbase 4
  | 0x08 => BitVec.ofNat 32 x.evsize
  | 0x10 => x.evwp
  | 0x14 => x.evrp
  | _ => 0

/-- A read in a VF's BAR (R372, R377, R381). -/
def State.vfRead (s : State) (f off : Nat) : Word :=
  if 0x1000 ≤ off ∧ off < 0x1400 then s.queueRead f ((off - 0x1000) / 0x40) (off % 0x40)
  else if 0x2000 ≤ off ∧ off < 0x2018 then s.eventRead f (off - 0x2000)
  else if off = 0x2020 then BitVec.ofNat 32 ((s.fn f).contained.toNat + 2 * (s.fn f).devloss.toNat)
  else if off = 0x2024 then BitVec.ofNat 32 (s.fn f).poisen
  else 0

/-- The AGE register of a die (R385). -/
def Die.age (x : Die) : Word := BitVec.ofNat 32 (x.ageIdx % 256 * 65536 + x.vgb % 256 * 256 + x.fcap % 256)

/-- A buffer table entry (R244). -/
def Buf.word (e : Buf) : DWord :=
  BitVec.ofNat 64 (e.gen * 2 ^ 52 + e.state * 2 ^ 50 + (if e.state = 2 then e.hq else 0) * 2 ^ 47 +
    e.hcore * 2 ^ 45 + e.hblk * 2 ^ 41 + e.home * 2 ^ 37 + e.len32 * 2 ^ 20 + e.base)

/-- A channel table entry (R203). -/
def Chan.word (e : Chan) : Word :=
  BitVec.ofNat 32 (e.gen % 4096 * 2 ^ 20 + e.block * 2 ^ 16 + e.state * 2 ^ 14 + e.msgs.length * 2 ^ 11)

/-- A word of the resident-block table of a core (R388). -/
def State.blockWord (s : State) (c b w : Nat) : Word :=
  match s.block? c b with
  | none => 0
  | some k =>
    match w with
    | 0 => BitVec.ofNat 32 (2 ^ 31 + k.task.isSome.toNat * 2 ^ 30 + k.committed.toNat * 2 ^ 29 +
        (s.mustReturn c b k.uid).toNat * 2 ^ 28 + k.vf * 2 ^ 16 + ((s.core c).groupsOf b).length * 256 + k.blockId)
    | 1 => ((s.launch? k.launch).map (·.lid)).getD 0
    | 2 => BitVec.ofNat 32 k.gang
    | _ => BitVec.ofNat 32 k.launch

/-- A word of the tables of a core (R244, R203, R388). -/
def State.coreRead (s : State) (c off : Nat) : Word :=
  if off < 0x800 then halfAt (tget {} (s.core c).bufs (off / 8)).word off
  else if off < 0x8FC then (tget {} (s.core c).chans ((off - 0x800) / 4)).word
  else if 0xA00 ≤ off ∧ off < 0xB00 then s.blockWord c ((off - 0xA00) / 16) (off % 16 / 4)
  else 0

/-- The counters of a stop (R284, R349). -/
def Stop.read (t : Stop) (r : Nat) : Word :=
  match r / 8 with
  | 0 => halfAt t.freq r
  | 1 => halfAt t.fmrg r
  | 2 => halfAt t.ffet r
  | 3 => halfAt t.fwrt r
  | 4 => if r % 8 = 0 then t.cecnt else t.uecnt
  | 5 => if r % 8 = 0 then t.macf else t.poisr
  | _ => 0

/-- The counters of an output port (R328). -/
def Port.read (p : Port) (r : Nat) : Word :=
  match r / 4 with
  | 0 => p.txlat
  | 1 => p.txbulk
  | 2 => p.txres
  | 3 => p.promo
  | 4 => p.stallc
  | 5 => p.purged
  | _ => 0

/-- Entry `i` of a stop's poison record, the recorded units in order of address (R350). -/
def Stop.recordWord (t : Stop) (i : Nat) : DWord :=
  match t.record[i]? with
  | none => 0
  | some r => BitVec.ofNat 64 (2 ^ 63 + r.2 % 4 * 2 ^ 61 + r.1 % 2 ^ 47)

/-- Entry `i` of a die's quarantine table, the frames in order of address (R353). -/
def Die.quarantineWord (x : Die) (i : Nat) : DWord :=
  match x.quarantine[i]? with
  | none => 0
  | some r => BitVec.ofNat 64 (2 ^ 63 + r.1 % 2 ^ 36)

/-- The held group of a core as a context save would leave it now (R389). -/
def State.heldImage (s : State) (c : Nat) : List Byte :=
  match s.held? c with
  | none => []
  | some (g, y) =>
    match (s.unhitch c g 3).group? c g, s.block? c y.block with
    | some z, some k => groupImage g k z.settleSave
    | _, _ => []

/-- A read of the debug window of a core (R157, R389). -/
def State.debugRead (s : State) (c off : Nat) : Word :=
  if off = 0xFF00 then
    BitVec.ofNat 32 ((s.core c).dbgHeld.isSome.toNat * 2 ^ 31) ||| ((s.core c).dbgctl &&& 0xF)
  else if off = 0xFF04 then (s.core c).dbgcmd
  else if off = 0xFF08 then (s.core c).dbgstat
  else if off < 0xF600 then imgWord (s.heldImage c) off
  else 0

/-- The first Filzia link of a die, and how many it has (R390). -/
def firstLink (d : Nat) : Nat := if d = 0 then 0 else 1 + 4 * d
def linkCount (d : Nat) : Nat := if d = 0 ∨ d = 3 then 5 else 4

/-- A read in the register block of a die (R387). -/
def State.dieRead (s : State) (d off : Nat) : Word :=
  let x := s.die d
  if off = 0 then x.mesharb
  else if off = 4 then x.slotcmd
  else if off = 8 then x.age
  else if off = 0xC then BitVec.ofNat 32 s.fixlat.toNat
  else if 0x40 ≤ off ∧ off < 0x40 + 4 * linkCount d then
    BitVec.ofNat 32 (tget {} s.links (firstLink d + (off - 0x40) / 4)).state
  else if 0x1000 ≤ off ∧ off < 0x1080 then
    let i := (off - 0x1000) / 2
    BitVec.ofNat 32 (tget 0 x.staging i + tget 0 x.staging (i + 1) * 65536)
  else if 0x10000 ≤ off ∧ off < 0x10800 then halfAt (tget 0 x.asidT ((off - 0x10000) / 8)) off
  else if 0x11000 ≤ off ∧ off < 0x11200 then halfAt (tget 0 x.seg ((off - 0x11000) / 8)) off
  else if 0x11200 ≤ off ∧ off < 0x11400 then
    (if d = 0 then halfAt (tget 0 x.hostSeg ((off - 0x11200) / 8)) off else 0)
  else if 0x20000 ≤ off ∧ off < 0x20800 then (s.stop d ((off - 0x20000) / 0x100)).read (off % 0x100)
  else if 0x30000 ≤ off ∧ off < 0x31000 then
    let p := off % 0x100 / 0x20
    if p < 5 then (x.port ((off - 0x30000) / 0x100) p).read (off % 0x20) else 0
  else if 0x40000 ≤ off ∧ off < 0x48000 then
    halfAt ((s.stop d ((off - 0x40000) / 0x1000)).recordWord (off % 0x1000 / 8)) off
  else if 0xC0000 ≤ off ∧ off < 0xC8000 then halfAt (x.quarantineWord ((off - 0xC0000) / 8)) off
  else if 0x100000 ≤ off ∧ off < 0x200000 then
    s.coreRead (64 * d + (off - 0x100000) / 0x4000) (off % 0x4000)
  else if 0x300000 ≤ off ∧ off < 0x301000 then
    (if off % 0x100 = 0 then (s.cluster (16 * d + (off - 0x300000) / 0x100)).stateWord else 0)
  else if 0x800000 ≤ off ∧ off < 0xC00000 then
    s.debugRead (64 * d + (off - 0x800000) / 0x10000) (off % 0x10000)
  else 0

/-- A read of a PF register outside windows and die blocks (R381, R387, R388). RESUME reads 0. -/
def State.pfRead (s : State) (off : Nat) : Word :=
  if 0x1000 ≤ off ∧ off < 0x1400 then s.queueRead 64 ((off - 0x1000) / 0x40) (off % 0x40)
  else if 0x2000 ≤ off ∧ off < 0x2018 then s.eventRead 64 (off - 0x2000)
  else if off = 0x3000 ∨ off = 0x3004 then halfAt s.pf.ckpt off
  else if off = 0x3008 ∨ off = 0x300C then halfAt s.pf.ckptda off
  else if off = 0x3010 ∨ off = 0x3014 then halfAt s.pf.ckptdb off
  else if off = 0x301C then
    BitVec.ofNat 32 (((rangeFrom 0 4).map fun d => (s.die d).replan.toNat * 2 ^ d).sum)
  else if off = 0x3040 then s.pf.ctxcmd
  else if off = 0x3044 then s.pf.ctxloc
  else if off = 0x3048 ∨ off = 0x304C then halfAt s.pf.ctxaddr off
  else if off = 0x3050 then s.pf.ctxlen
  else 0

/-- A 4-byte read in the BAR of a function: a VF's, or for 64 the PF's (R387). -/
def State.regRead (s : State) (fn off : Nat) : Word :=
  if off % 4 ≠ 0 then 0
  else if fn ≠ 64 then s.vfRead fn off
  else if 0x100000 ≤ off ∧ off < 0x500000 then s.vfRead ((off - 0x100000) / 0x10000) (off % 0x10000)
  else if 0x1000000 ≤ off ∧ off < 0x5000000 then s.dieRead ((off - 0x1000000) / 0x1000000) (off % 0x1000000)
  else s.pfRead off

/-- Software reads 4 or 8 bytes of the registers of a function (R387). -/
def State.hostReads (s : State) (fn off size : Nat) : State :=
  if 64 < fn then s
  else
    { s with readReg := (if size = 8 then s.regRead fn (off + 4) else 0) ++ s.regRead fn off }

end Sys2Proof.Machine
end

