-- ==== Sys2Proof/Machine/Agents.lean ====
section
/-!
DEFINITION. The moves of the machine's agents: issue decisions, events and engine steps of the opcode
table, cycles of the clock, and what stands outside the device (log entry 1).
-/
namespace Sys2Proof.Machine

/-- An event or engine step: a row of the opcode table that has no instruction word. -/
def isEvent (i : Instr) : Bool :=
  match i with
  | .illegalWord _ => false
  | i => decide (form i = .none)

/-- Firmware's write of a unit enters a die's mesh at a router: a packet of partition 127 (R309). -/
def State.firmware (s : State) (d router : Nat) (r : Req) : State :=
  let (n, s1) := s.freshUid
  let q : Req := { r with id := n, kind := 1, die := d, router, port := pLocal }
  let p := { stopPacket d q with part := 127 }
  if d < 4 ∧ router < 16 ∧ q.unit = granBytes q.leaf.gran ∧ (s.die d).canInject router router pLocal s.now [] p then
    s1.modDie d fun x => x.inject d router router pLocal s.now [] p
  else s

/-- A move of an agent outside the device, or of one whose choices the spec leaves open. -/
def State.env (s : State) : Env → State
  | .hostWrite a l => s.writeHost a l
  | .hbmWrite d a l =>
    if 4 ≤ d then s
    else s.modDie d fun x =>
      { x with
        hbm := (cellsAt a l).foldl (fun t c => tset 0 t (dramCell (tget 0 x.wgran (c.1 / 32)) c.1) c.2) x.hbm
        plain := tblWrite x.plain a l }
  | .dramError d a b => if 4 ≤ d then s else s.modDie d fun x => { x with hbm := tset 0 x.hbm a b }
  | .sideWrite d i b => if 4 ≤ d then s else s.modDie d fun x => { x with side := tset 0 x.side i b }
  | .service d f => if 4 ≤ d then s else s.modDie d fun x => { x with quarantine := tdel x.quarantine f }
  | .firmware d router r => s.firmware d router r
  | .noReply c b => s.modCore c fun x => { x with noReply := b }
  | .slotStart d n => if 4 ≤ d ∨ s.now ≠ 0 then s else s.modDie d fun x => { x with slotIndex := n % 64 }
  | .linkStalls n l => { s with links := tmod s.links n fun x => { x with stalls := l } }
  | .regRead f o n => s.hostReads f o n
  | .loadObject o => { s with objects := s.objects.filter (fun p => p.asid != o.asid || p.addr != o.addr) ++ [o] }
  | .peer n f => s.peerFrame n f
  | .linkRetry n k => { s with links := tmod s.links n fun l => l.again k }
  | .pfSegment w b => { s with pf := { s.pf with hostSeg := w, poisen := b } }
  | .stages l => { s with trust := { s.trust with stages := l } }
  | .dropSlice d i => if 4 ≤ d then s else s.modDie d fun x => { x with tlb := x.tlb.eraseIdx i }
  | .dropCode c i => if s.fixlat then s else s.modCore c fun x => { x with code := x.code.eraseIdx i }
  | .journalError c b => s.modBlock c b fun k => { k with jbad := true }

/-- The position that a command's next act is about, and the request that a stop takes next (R9, R189). -/
def State.aimCmd (s : State) (c seq : Nat) (a : Aim) : State := s.modCmd c seq fun m => { m with aim := a }
def State.aimStop (s : State) (d t n : Nat) : State := if 4 ≤ d then s else s.modStop d t fun y => { y with aim := n }

/-! ### What a cycle may not end without -/

/-- Whether an output port has still to act in this cycle: a body flit, a waiting head or a deferred
reservation is there (R317, R323). -/
def State.portDue (s : State) (d k : Nat) : Bool :=
  let p := (s.die d).port (k / 8) (k % 8)
  decide (p.nextAt ≤ s.now) && (p.body.isSome || !p.deferred.isEmpty || !(s.waiting d (k / 8) (k % 8)).isEmpty)

/-- Whether any output port of a die has. -/
def State.portsDue (s : State) (d : Nat) : Bool :=
  let x := s.die d
  let fronts := x.bufs.flatMap fun kb => match kb.2 with
    | sl :: _ => sl.todo.map fun q => 8 * (kb.1 / 64) + q
    | [] => []
  (fronts ++ x.ports.map (·.1)).any (s.portDue d)

/-- Whether an event can happen. -/
def State.happens (s : State) (f : State → Out) : Bool :=
  match f { s with mark := .done } with
  | .next t => t.mark != .held
  | _ => false

/-- What diagnostic fixed-latency mode fixes to this cycle and has not happened on a die: the lookup of a read
that has arrived, the data of an entry and a write or an atomic 600 cycles after arrival (R285), a bound 40
cycles after its change (R333), and the translation of units, which enter their router in the cycle in which
they issue (R334). -/
def State.dieDue (s : State) (d : Nat) : Bool :=
  let x := s.die d
  s.fixlat &&
    ((rangeFrom 0 8).any (fun t => s.happens (execFoldReadRequest d t) || s.happens (execStopWrite d t) ||
        s.happens (execStopAtomic d t) ||
        (s.stop d t).folds.any fun f => s.happens (execDramDataArrival d t f.num)) ||
      (x.xlat.any fun r => s.happens (execUnitTranslation d r.id)) ||
      (x.walks.any fun w => s.happens (execPageWalkComplete d w.id)) ||
      x.convoys.any fun kv => kv.2.members.any fun km => s.happens (execBoundUpdate d kv.1 km.1))

/-- Whether something that belongs to this cycle has not happened yet: a paddock swap that is due (R150), a load
that issued 6 cycles ago (R187), an unhitch timer that has reached its limit (R293), a combiner entry whose
watchdog has run out (R401), an output port that has a head to grant (R317), and what diagnostic fixed-latency mode fixes (R285, R332 to R334). -/
def State.tickDue (s : State) : Bool :=
  (s.combiner.any s.entryOver) || (s.cores.any fun kc => s.copyDue kc.1 || kc.2.groups.any fun kg =>
      kg.2.loadDue s.now || kg.2.cvDue || s.swapNow kc.1 kg.1 kg.2) ||
    (rangeFrom 0 4).any fun d => s.portsDue d || s.dieDue d

/-- One move of one agent. A cycle does not end before what belongs to it has happened. -/
def State.act (s : State) (a : Action) : Out :=
  match a with
  | .ev i => if isEvent i then exec i s else .next s
  | .issue c hg hs pair => s.issueOn c hg hs pair
  | .poll c g i => s.pollOn c g i
  | .tick => .next (if s.tickDue then s else s.tick)
  | .env e => .next (s.env e)
  | .aim c seq a => .next (s.aimCmd c seq a)
  | .aimStop d t n => .next (s.aimStop d t n)
  | .load c g => .next (s.loadPerform c g)

/-- The move that comes next: the first one of the script, else what the free schedule names. -/
def State.nextAction (s : State) : Action :=
  match s.script with
  | a :: _ => a
  | [] => Config.schedule s.stepNo

/-- The machine with that move taken off the script and counted. -/
def State.taken (s : State) : State := { s with script := s.script.drop 1, stepNo := s.stepNo + 1 }

/-! ### One instruction placed for the next step -/

/-- The group that runs an instruction placed by State.withFetchWord: 96 lanes, 128 vector registers, one
split in entry 0 at address 0. -/
def fetchGroup : Group :=
  { foot := 128
    splits := [{ exec := presentMask 96, domain := presentMask 96 }] }

/-- Its block: the whole scratchpad, without trap entry. -/
def fetchBlock : Block := { size := 1048576 }

/-- Core 0 with that block and group alone, and with the first 64-byte block of code fetched. -/
def Core.withWord (x : Core) (w : Nat) : Core :=
  { x with
    groups := [(0, fetchGroup)], blocks := [(0, fetchBlock)], rr := 15, trapOwner := none
    code := [{ asid := 0, block := 0, bytes := natLe w 64 }] }

end Sys2Proof.Machine
end

