-- ==== Sys2Proof/Machine/Step.lean ====
section
/-!
DEFINITION. The step of the machine: one move of one agent (log entry 1).
-/
namespace Sys2Proof.Machine

/-- One step: the next move is taken and made. -/
def step (s : State) : Out := s.taken.act s.nextAction

/-- The machine with an instruction (the low `nbits` bits of `w`, zeros above) placed where the next step
issues it: as the fetched code of a group of one split on core 0, whose issue is the next move. -/
def State.withFetchWord (s : State) (nbits w : Nat) : State :=
  let t := s.modCore 0 fun x => x.withWord (w % 2 ^ nbits)
  { t with d3hot := false, script := [.issue 0 [] [] false] }

end Sys2Proof.Machine
end

