-- ==== Sys2Proof/Safety.lean ====
section
/-!
DEFINITION. What claims are stated in: the registers and memories as they read, what an instruction keeps,
the forms of an instruction's effect, canonical memories, and safe runs.
-/
namespace Sys2Proof.Machine

/-! ### Reading the machine -/

/-- Scalar register `n` of the issuing split (R83). -/
def State.sAt (s : State) (cx : Ctx) (n : Nat) : Option Word :=
  (s.group? cx.core cx.slot).bind fun g => (g.split? cx.sp.id).map fun p => readS g.regs p n

/-- Lane `l` of vector register `r` of the issuing group (R82). -/
def State.vAt (s : State) (cx : Ctx) (r l : Nat) : Option Word :=
  (s.group? cx.core cx.slot).map fun g => tget 0 g.regs.v (96 * r + l)

/-- Mask register `n` of the issuing group; k0 reads as all ones (R87). -/
def State.kAt (s : State) (cx : Ctx) (n : Nat) : Option LaneMask :=
  (s.group? cx.core cx.slot).map fun g => if n = 0 then BitVec.allOnes 96 else tget 0 g.regs.k n

/-- The issuing split as it stands. -/
def State.splitAt (s : State) (cx : Ctx) : Option Split :=
  (s.group? cx.core cx.slot).bind fun g => g.split? cx.sp.id

/-- The issuing group as it stands. -/
def State.grpAt (s : State) (cx : Ctx) : Option Group := s.group? cx.core cx.slot

/-- The issuing split's PC. -/
def State.pcAt (s : State) (cx : Ctx) : Option DWord := (s.splitAt cx).map (·.pc)

/-- A byte of the scratchpad of core `c` (R170). -/
def State.spadByte (s : State) (c a : Nat) : Byte := tget 0 (s.core c).spad a
/-- A byte of the DRAM of die `d` (R345). -/
def State.dramByte (s : State) (d a : Nat) : Byte := tget 0 (s.die d).hbm a
/-- A byte of host memory. -/
def State.hostByte (s : State) (a : Nat) : Byte := tget 0 s.hostMem a

/-! ### What stays as it was -/

/-- A group without its registers and splits: its special registers, trap registers, counters, queues and
membership. -/
def Group.rest (g : Group) : Group := { g with regs := {}, splits := [] }

/-- A split without its registers, its PC and its wait. -/
def Split.rest (p : Split) : Split :=
  { p with s56 := 0, s57 := 0, s58 := 0, s59 := 0, fmt := 0, exec := 0, pc := 0, wait := 0
           await := .none, waitI := none }

/-- A block without its journal and the flag that the journal is full (R216). -/
def Block.rest (b : Block) : Block := { b with jrecs := [], grecs := [], jfull := false }

/-- A core without its groups and blocks. -/
def Core.rest (x : Core) : Core := { x with groups := [], blocks := [] }

/-- The machine without its cores and the marks of its last instruction. -/
def State.rest (s : State) : State := { s with cores := [], cur := {}, mark := .done, pre := none }

/-- What an instruction may change: scalar, vector and mask registers of its split and group, bytes of
scratchpads (core and address), and how it changes the rest of its split and group, its own block, other
groups and blocks, the cores and the rest of the machine. By default nothing. -/
structure Effect where
  ss : List Nat := []
  vs : List Nat := []
  ks : List Nat := []
  bytes : List (Nat × Nat) := []
  split : Split → Split := id
  group : Group → Group := id
  other : Nat → Group → Group := fun _ => id
  block : Block → Block := id
  otherBlock : Nat → Nat → Block → Block := fun _ _ => id
  core : Nat → Core → Core := fun _ => id
  machine : State → State := id

/-- Everything but the issuing group: other groups and blocks, the cores, and the rest of the machine. -/
structure KeepsOthers (s t : State) (cx : Ctx) (e : Effect) : Prop where
  groups : ∀ c g, c ≠ cx.core ∨ g ≠ cx.slot → t.group? c g = (s.group? c g).map (e.other c)
  ownBlock : (t.block? cx.core cx.grp.block).map Block.rest =
    (s.block? cx.core cx.grp.block).map fun b => (e.block b).rest
  blocks : ∀ c b, c ≠ cx.core ∨ b ≠ cx.grp.block → t.block? c b = (s.block? c b).map (e.otherBlock c b)
  cores : ∀ c, (t.core c).rest = (e.core c (s.core c)).rest
  machine : t.rest = (e.machine s).rest

/-- What an instruction keeps: the scalar, vector and mask registers that it does not name; the special
registers, trap registers, counters and queues of its group but for its named change; the other splits;
all else of the machine but for its named changes; and every byte of every memory but those named. -/
structure Keeps (s t : State) (cx : Ctx) (e : Effect) : Prop where
  scalars : ∀ n, n < 64 → n ∉ e.ss → t.sAt cx n = s.sAt cx n
  vectors : ∀ r l, l < 96 → r ∉ e.vs → t.vAt cx r l = s.vAt cx r l
  masks : ∀ n, n ∉ e.ks → t.kAt cx n = s.kAt cx n
  special : (t.grpAt cx).map Group.rest = (s.grpAt cx).map fun g => (e.group g).rest
  own : (t.splitAt cx).map Split.rest = (s.splitAt cx).map fun p => (e.split p).rest
  splits : ∀ id, id ≠ cx.sp.id →
    (t.grpAt cx).bind (Group.split? · id) = (s.grpAt cx).bind (Group.split? · id)
  others : KeepsOthers s t cx e
  spads : ∀ c a, (c, a) ∉ e.bytes → t.spadByte c a = s.spadByte c a
  drams : ∀ d a, t.dramByte d a = s.dramByte d a
  hosts : ∀ a, t.hostByte a = s.hostByte a

/-! ### The forms of an effect -/

/-- What register `n` holds after `v` is written to it: exec takes only lanes of the domain (R85). -/
def landed (cx : Ctx) (n : Nat) (v : Word) : Word :=
  if n < 61 then v else v &&& cx.sp.domain.extractLsb' (32 * (n - 61)) 32

/-- The instruction completes: it answers a next state in which the split goes on at `pc`, what it does not
change is kept, and `also` holds. -/
def Completes (s : State) (cx : Ctx) (o : Out) (pc : DWord) (e : Effect) (also : State → Prop) : Prop :=
  ∃ t, o = .next t ∧ t.mark = .done ∧ t.pcAt cx = some pc ∧ Keeps s t cx e ∧ also t

/-- It completes and writes `v` to scalar register `n` alone. -/
def WritesScalar (s : State) (cx : Ctx) (o : Out) (pc : DWord) (n : Nat) (v : Word) : Prop :=
  Completes s cx o pc { ss := [n] } fun t => t.sAt cx n = some (landed cx n v)

/-- It completes and writes `f l` to lane `l` of vector register `r` for the lanes of `m` alone. -/
def WritesLanes (s : State) (cx : Ctx) (o : Out) (pc : DWord) (r : Nat) (m : LaneMask) (f : Nat → Word) :
    Prop :=
  Completes s cx o pc { vs := [r] } fun t =>
    ∀ l, l < 96 → t.vAt cx r l = if m.getLsbD l then some (f l) else s.vAt cx r l

/-- It completes and writes the bit `f l` to lane `l` of mask register `n` for the lanes of `m` alone; a write
to k0 is ignored (R87). -/
def WritesMask (s : State) (cx : Ctx) (o : Out) (pc : DWord) (n : Nat) (m : LaneMask) (f : Nat → Bool) : Prop :=
  Completes s cx o pc { ks := [n] } fun t =>
    ∀ l, l < 96 → (t.kAt cx n).map (·.getLsbD l) =
      if n ≠ 0 ∧ m.getLsbD l then some (f l) else (s.kAt cx n).map (·.getLsbD l)

/-! ### Traps -/

/-- A trap of the issuing split is taken (R164, R166, R222, R224): the trap registers hold cause, PC and
information, TRET is to resume at `resume`, every split of the group stands frozen, the rejoin registers are
in the shadow, the handler's split stands in entry 62 at `entry` with the faulting split's lanes and
registers, the core's trap pair is the group's, and registers and memories are as they were. -/
structure TrapTaken (s t : State) (cx : Ctx) (cause : Nat) (info : Word) (resume entry : DWord) : Prop where
  mark : t.mark = .trapped
  pair : (t.core cx.core).trapOwner = some cx.slot
  group : ∃ g h, t.grpAt cx = some g ∧
    (g.trap.active = true ∧ g.trap.cause = cause ∧ g.trap.pc = cx.sp.pc ∧ g.trap.info = info ∧
      g.trap.resume = some resume ∧ g.trap.split = cx.sp.id ∧ g.trap.pending = none) ∧
    g.j = [] ∧ g.trap.jshadow = cx.grp.j ∧ g.regs = cx.grp.regs ∧
    g.splits = (cx.grp.splits.map fun p =>
      (if cx.grp.issues cx.sp.id p then { p with wait := 0, await := .none, waitI := none } else p).freeze) ++
        [h] ∧
    (h.handler = true ∧ h.place = 62 ∧ h.pc = entry ∧ h.wait = 0 ∧ h.id = cx.sp.id ∧ h.exec = cx.sp.exec ∧
      h.domain = cx.sp.domain ∧ h.fmt = cx.sp.fmt ∧ h.s56 = cx.sp.s56 ∧ h.s57 = cx.sp.s57 ∧
      h.s58 = cx.sp.s58 ∧ h.s59 = cx.sp.s59)
  spads : ∀ c a, t.spadByte c a = s.spadByte c a
  drams : ∀ d a, t.dramByte d a = s.dramByte d a
  hosts : ∀ a, t.hostByte a = s.hostByte a

/-- A trap of the issuing split can be taken at once: it is no handler's, no release of its group is in
progress, its core's trap pair is free, and its block has a trap entry, which stands at `entry`. -/
structure CanTrap (s : State) (cx : Ctx) (entry : DWord) : Prop where
  plain : cx.sp.handler = false
  calm : cx.grp.releasing = false
  free : (s.core cx.core).trapOwner = none
  target : ∃ i h, cx.blk.trapEntry = some i ∧ s.handler? cx.blk.launch i = some h ∧ h.entry = entry

/-- The instruction traps with a cause and information, and its trap is taken. -/
def Traps (s : State) (cx : Ctx) (o : Out) (cause : Nat) (info : Word) (resume : DWord) : Prop :=
  ∀ entry, CanTrap s cx entry → ∃ t, o = .next t ∧ TrapTaken s t cx cause info resume entry

/-! ### Memories and runs -/

/-- The canonical form of a memory: addresses rise strictly, and no entry equals what an unlisted address
reads as (0, log entry 2). -/
def Memory.wf (m : Tbl Byte) : Bool := twf 0 m

/-- The memories of a die are canonical: its DRAM and side bytes and the values last written. -/
def Die.memWf (x : Die) : Bool := Memory.wf x.hbm && Memory.wf x.side && Memory.wf x.plain

/-- Every memory of the machine is canonical: scratchpads, those of the dies, and host memory. -/
def State.memWf (s : State) : Bool :=
  (s.cores.all fun kc => Memory.wf kc.2.spad) && (s.dies.all fun kd => kd.2.memWf) && Memory.wf s.hostMem

/-- `k` steps from a state: none as soon as one faults or is refused. -/
def runSteps : Nat → State → Option State
  | 0, s => some s
  | k + 1, s =>
    match step s with
    | .next t => runSteps k t
    | _ => none

/-- A run of `k` steps that neither faults nor is refused. -/
def safeRun (k : Nat) (s : State) : Bool := (runSteps k s).isSome

/-- A core issues one instruction next: the core's choice, whatever holds other groups and splits back, is one split
alone, and the instruction stands at its PC; a word that is none is one that traps with its reason (R54). -/
structure IssuesNext (s : State) (c : Nat) (k : Pick) (g : Group) (i : Instr) : Prop where
  pick : ∃ hg hs pair, s.script.head? = some (.issue c hg hs pair) ∧ s.taken.pick c hg hs pair = some k
  alone : k.second = none
  group : s.group? c k.slot = some g
  free : g.claimed = false
  word : s.seen c g k.first = .instr i ∨
    ∃ n, (s.seen c g k.first = .illegal n ∨ n ≠ 1 ∧ s.seen c g k.first = .failed n) ∧ i = .illegalWord n

/-- A core issues two instructions of a group next, of split `a` and, with the higher id, split `b` (R147, R148). -/
structure IssuesPair (s : State) (c : Nat) (k : Pick) (g : Group) (a b : Split) (i j : Instr) : Prop where
  pick : ∃ hg hs pair, s.script.head? = some (.issue c hg hs pair) ∧ s.taken.pick c hg hs pair = some k
  splits : k.first = a ∧ k.second = some b ∧ a.id ≤ b.id ∨ k.first = b ∧ k.second = some a ∧ a.id < b.id
  group : s.group? c k.slot = some g
  free : g.claimed = false
  words : s.seen c g a = .instr i ∧ s.seen c g b = .instr j

end Sys2Proof.Machine
end

