-- ==== Sys2Proof/Certificates/Slice0/Obligations.lean ====
section
/-!
DEFINITION. The statements for the provers. Each says what an instruction or the machine does, by the
rules that its docstring names; the forms of an effect stand in Safety.lean.
-/
namespace Sys2Proof.Claims

open Sys2Proof.Machine

/-! ### SALU (R123 to R125) -/

/-- The results of the SALU arithmetic instructions on operands a and b, in exact numbers (R124). -/
def scalarArith (a b : Word) : List ((FmtS → Instr) × Word) :=
  [(.sadd, BitVec.ofNat 32 (a.toNat + b.toNat)),
   (.ssub, BitVec.ofInt 32 ((a.toNat : Int) - b.toNat)),
   (.smul, BitVec.ofNat 32 (a.toNat * b.toNat)),
   (.smulh, BitVec.ofInt 32 (a.toInt * b.toInt / 2 ^ 32)),
   (.smulhu, BitVec.ofNat 32 (a.toNat * b.toNat / 2 ^ 32)),
   (.smin, BitVec.ofInt 32 (min a.toInt b.toInt)),
   (.smax, BitVec.ofInt 32 (max a.toInt b.toInt)),
   (.sminu, BitVec.ofNat 32 (min a.toNat b.toNat)),
   (.smaxu, BitVec.ofNat 32 (max a.toNat b.toNat)),
   (.slih, BitVec.ofNat 32 (b.toNat % 65536 * 65536 + a.toNat % 65536))]

/-- The results of the SALU logic and shift instructions; a shift counts b[4:0] (R124). -/
def scalarLogic (a b : Word) : List ((FmtS → Instr) × Word) :=
  [(.sand, a &&& b), (.sor, a ||| b), (.sxor, a ^^^ b), (.sandn, a &&& ~~~b),
   (.sshl, BitVec.ofNat 32 (a.toNat * 2 ^ (b.toNat % 32))),
   (.sshr, BitVec.ofNat 32 (a.toNat / 2 ^ (b.toNat % 32))),
   (.ssar, BitVec.ofInt 32 (a.toInt / 2 ^ (b.toNat % 32))),
   (.srot, BitVec.ofNat 32 (a.toNat * 2 ^ (b.toNat % 32) + a.toNat / 2 ^ (32 - b.toNat % 32)))]

/-- 1 for true, 0 for false. -/
def truth (p : Prop) [Decidable p] : Word := if p then 1 else 0

/-- The results of the SALU comparisons, moves and bit counts; `old` is s[SD] before (R124, R125). -/
def scalarOther (f : FmtS) (old a b : Word) : List ((FmtS → Instr) × Word) :=
  [(.sceq, truth (a.toNat = b.toNat)), (.scne, truth (a.toNat ≠ b.toNat)),
   (.sclt, truth (a.toInt < b.toInt)), (.scle, truth (a.toInt ≤ b.toInt)),
   (.scltu, truth (a.toNat < b.toNat)), (.scleu, truth (a.toNat ≤ b.toNat)),
   (.ssel, if old.toNat ≠ 0 then a else b), (.smov, b),
   (.sliShort, BitVec.ofInt 32 f.imm29.toInt),
   (.spopc, BitVec.ofNat 32 ((List.range 32).countP a.getLsbD)),
   (.sclz, BitVec.ofNat 32 (32 - a.toNat.size)),
   (.sffs, BitVec.ofNat 32 (((List.range 32).find? a.getLsbD).getD 32))]

/-- Every instruction of the list completes, writes its result to s[SD] alone and goes on at the next
word. -/
def ScalarResults (l : Ctx → FmtS → List ((FmtS → Instr) × Word)) : Prop :=
  ∀ (s : State) (cx : Ctx) (f : FmtS), s.ctx? = some cx → ∀ x ∈ l cx f,
    WritesScalar s cx (exec (x.1 f) s) (cx.sp.nextPc f.lx) f.sd.toNat x.2

/-! ### Lane instructions (R92, R95, R100) -/

/-- A lane instruction writes its value to v[VD] in the lanes of exec AND k[KM], and goes on. -/
def LaneResult (i : FmtV → Instr) (value : FmtV → Ctx → Nat → Word) : Prop :=
  ∀ (s : State) (cx : Ctx) (f : FmtV), s.ctx? = some cx →
    WritesLanes s cx (exec (i f) s) (cx.sp.nextPc f.lx) f.vd.toNat (cx.active f.km) (value f cx)

/-- A lane instruction completes in every state with an issuing split and for all operands: exec answers a next
state in which the split goes on at the next word, and nothing has changed but v[VD] in the lanes of exec AND
k[KM] and, by `n`, the model's free-value counter (R92, log entry 7). -/
def CompletesInLanes (i : FmtV → Instr) (n : Nat) : Prop :=
  ∀ (s : State) (cx : Ctx) (f : FmtV), s.ctx? = some cx →
    ∃ t, exec (i f) s = .next t ∧ t.mark = .done ∧ t.pcAt cx = some (cx.sp.nextPc f.lx) ∧
      Keeps { s with free := s.free + n } t cx { vs := [f.vd.toNat] } ∧
      ∀ l, l < 96 → (cx.active f.km).getLsbD l = false → t.vAt cx f.vd.toNat l = s.vAt cx f.vd.toNat l

/-- The same for every element: one of 32 bits for TY = I32, else two of 16 bits (R96, R100). -/
def ElementResult (x : (FmtV → Instr) × ((w : Nat) → BitVec w → BitVec w → BitVec w → BitVec w)) : Prop :=
  LaneResult x.1 fun f cx l =>
    let a := f.opA cx l
    let b := f.opB cx l
    let c := f.opC cx l
    if f.ty = 0 then x.2 32 a b c
    else x.2 16 (a.extractLsb' 16 16) (b.extractLsb' 16 16) (c.extractLsb' 16 16) ++
      x.2 16 (a.extractLsb' 0 16) (b.extractLsb' 0 16) (c.extractLsb' 0 16)

/-- The VINT sums, products, minima and saturating sums of w-bit elements, in exact numbers (R100). -/
def laneArith : List ((FmtV → Instr) × ((w : Nat) → BitVec w → BitVec w → BitVec w → BitVec w)) :=
  [(.vadd, fun w a b _ => BitVec.ofNat w (a.toNat + b.toNat)),
   (.vsub, fun w a b _ => BitVec.ofInt w ((a.toNat : Int) - b.toNat)),
   (.vmul, fun w a b _ => BitVec.ofNat w (a.toNat * b.toNat)),
   (.vmulh, fun w a b _ => BitVec.ofInt w (a.toInt * b.toInt / 2 ^ w)),
   (.vmulhu, fun w a b _ => BitVec.ofNat w (a.toNat * b.toNat / 2 ^ w)),
   (.vmad, fun w a b c => BitVec.ofNat w (a.toNat * b.toNat + c.toNat)),
   (.vmin, fun w a b _ => BitVec.ofInt w (min a.toInt b.toInt)),
   (.vmax, fun w a b _ => BitVec.ofInt w (max a.toInt b.toInt)),
   (.vminu, fun w a b _ => BitVec.ofNat w (min a.toNat b.toNat)),
   (.vmaxu, fun w a b _ => BitVec.ofNat w (max a.toNat b.toNat)),
   (.vabs, fun w a _ _ => BitVec.ofInt w |a.toInt|),
   (.vneg, fun w a _ _ => BitVec.ofInt w (-a.toInt)),
   (.vsadd, fun w a b _ => BitVec.ofInt w (max (-2 ^ (w - 1)) (min (2 ^ (w - 1) - 1) (a.toInt + b.toInt)))),
   (.vssub, fun w a b _ => BitVec.ofInt w (max (-2 ^ (w - 1)) (min (2 ^ (w - 1) - 1) (a.toInt - b.toInt)))),
   (.vsaddu, fun w a b _ => BitVec.ofNat w (min (2 ^ w - 1) (a.toNat + b.toNat))),
   (.vssubu, fun w a b _ => BitVec.ofNat w (a.toNat - b.toNat))]

/-- The VINT logic, shifts and bit counts; a shift counts b modulo w (R100, R101). -/
def laneLogic : List ((FmtV → Instr) × ((w : Nat) → BitVec w → BitVec w → BitVec w → BitVec w)) :=
  [(.vand, fun _ a b _ => a &&& b), (.vor, fun _ a b _ => a ||| b), (.vxor, fun _ a b _ => a ^^^ b),
   (.vandn, fun _ a b _ => a &&& ~~~b), (.vnot, fun _ a _ _ => ~~~a),
   (.vshl, fun w a b _ => BitVec.ofNat w (a.toNat * 2 ^ (b.toNat % w))),
   (.vshr, fun w a b _ => BitVec.ofNat w (a.toNat / 2 ^ (b.toNat % w))),
   (.vsar, fun w a b _ => BitVec.ofInt w (a.toInt / 2 ^ (b.toNat % w))),
   (.vrot, fun w a b _ => BitVec.ofNat w (a.toNat * 2 ^ (b.toNat % w) + a.toNat / 2 ^ (w - b.toNat % w))),
   (.vclz, fun w a _ _ => BitVec.ofNat w (w - a.toNat.size)),
   (.vpopc, fun w a _ _ => BitVec.ofNat w ((List.range w).countP a.getLsbD)),
   (.vbrev, fun w a _ _ => BitVec.ofFnLE fun i : Fin w => a.getMsbD i)]

/-- The 32-bit VINT forms: bit fields, selection and moves (R102, R103). -/
def laneMoves : List ((FmtV → Instr) × (FmtV → Ctx → Nat → Word)) :=
  [(.vbfx, fun f cx l =>
      let b := f.opB cx l
      let pos := bits b 4 0
      let n := min 32 (bits b 13 8)
      let x := (f.opA cx l).toNat / 2 ^ pos % 2 ^ n
      if f.imm8 = 1 ∧ 2 ^ n ≤ 2 * x then BitVec.ofInt 32 ((x : Int) - 2 ^ n) else BitVec.ofNat 32 x),
   (.vbfi, fun f cx l =>
      let b := f.opB cx l
      let pos := bits b 4 0
      let n := min 32 (bits b 13 8)
      BitVec.ofFnLE fun i : Fin 32 =>
        if pos ≤ i ∧ i < pos + n then (f.opA cx l).getLsbD (i - pos) else (f.opC cx l).getLsbD i),
   (.vsel, fun f cx l => if (cx.k f.imm8.toNat).getLsbD l then f.opA cx l else f.opB cx l),
   (.vmov, fun f cx l => f.opB cx l)]

/-! ### Masks, comparisons and moves to scalars (R104 to R107, R127, R128) -/

/-- What the mask instructions write to a lane, from its bits of ka and kb (R128). -/
def maskLogic : List ((FmtV → Instr) × (Bool → Bool → Bool)) :=
  [(.kand, fun a b => a && b), (.kor, fun a b => a || b), (.kxor, fun a b => a != b),
   (.kandn, fun a b => a && !b), (.knot, fun a _ => !a), (.kmov, fun a _ => a)]

/-- What KTOS, KPOPC and KFIRST write to s[VD] (R128). -/
def maskScalars (f : FmtV) (cx : Ctx) : List ((FmtV → Instr) × Word) :=
  let ka := cx.k (f.va.toNat % 8)
  let set (l : Nat) : Bool := (cx.participants f.km).getLsbD l && ka.getLsbD l
  [(.ktos, BitVec.ofNat 32 (ka.toNat / 2 ^ (32 * f.imm8.toNat))),
   (.kpopc, BitVec.ofNat 32 ((List.range 96).countP set)),
   (.kfirst, BitVec.ofNat 32 (((List.range 96).find? set).getD 96))]

/-- The element of a word that a comparison reads (R106). -/
def comparedElem (f : FmtV) (w : Word) : (n : Nat) × BitVec n :=
  if f.ty = 0 then ⟨32, w⟩ else ⟨16, w.extractLsb' (16 * (f.imm8.toNat % 2)) 16⟩

/-- The relations of the integer comparisons, unsigned numbers and signed numbers given (R105). -/
def intRelations : List ((FmtV → Instr) × (Nat → Nat → Int → Int → Bool)) :=
  [(.vceq, fun a b _ _ => a == b), (.vcne, fun a b _ _ => a != b), (.vclt, fun _ _ a b => a < b),
   (.vcle, fun _ _ a b => a ≤ b), (.vcltu, fun a b _ _ => a < b), (.vcleu, fun a b _ _ => a ≤ b)]

/-- The value of a finite or infinite code; none for a NaN. -/
noncomputable def floatValue (v : FVal) : Option EReal :=
  match v with
  | .nan => none
  | .inf neg => some (if neg then ⊥ else ⊤)
  | .fin neg n d e => some ((((if neg then -1 else 1) * (n : ℝ) / d * (2 : ℝ) ^ e : ℝ)) : EReal)

/-- The relations of the float comparisons on two values, none for a NaN (R105, R107). -/
def floatRelations : List ((FmtV → Instr) × (Option EReal → Option EReal → Prop)) :=
  [(.vfceq, fun x y => ∃ a b, x = some a ∧ y = some b ∧ a = b),
   (.vfclt, fun x y => ∃ a b, x = some a ∧ y = some b ∧ a < b),
   (.vfcle, fun x y => ∃ a b, x = some a ∧ y = some b ∧ a ≤ b),
   (.vfcun, fun x y => x = none ∨ y = none)]

/-- The class bit of a code: 0 NaN, 1 −∞, 2 negative normal, 3 negative subnormal, 4 zero, 5 positive
subnormal, 6 positive normal, 7 +∞ (R107). -/
def classOf (fm : FloatFmt) (code : Nat) : Nat :=
  let neg := code.testBit (fm.e + fm.m)
  let e := code / 2 ^ fm.m % 2 ^ fm.e
  let m := code % 2 ^ fm.m
  if e = 2 ^ fm.e - 1 then (if m ≠ 0 then 0 else if neg then 1 else 7)
  else if e = 0 then (if m = 0 then 4 else if neg then 3 else 5)
  else if neg then 2 else 6

/-! ### Float instructions (R108 to R116) -/

/-- The exact results of the rounding VFP instructions (R109). -/
def floatArith : List ((FmtV → Instr) × (RMode → FVal → FVal → FVal → FVal)) :=
  [(.vfadd, fun m a b _ => a.add m b), (.vfsub, fun m a b _ => a.add m b.neg),
   (.vfmul, fun _ a b _ => a.mul b), (.vfma, fun m a b c => (a.mul b).add m c),
   (.vfms, fun m a b c => (a.mul b).add m c.neg), (.vfnma, fun m a b c => (a.mul b).neg.add m c.neg),
   (.vfnms, fun m a b c => (a.mul b).neg.add m c),
   (.vrcp, fun _ a _ _ => (FVal.fin false 1 1 0).div a), (.vrsq, fun _ a _ _ => a.rsqrt),
   (.vsqrt, fun _ a _ _ => a.sqrt), (.vdiv, fun _ a b _ => a.div b)]

/-- Each element of a float type: the exact result of its operands, negated as NG says, rounded once under
RM and SAT (R108, R109). -/
def floatElem (f : FmtV) (g : RMode → FVal → FVal → FVal → FVal) (cx : Ctx) (l e : Nat) : Nat :=
  let fm := laneFmt f.ty
  let m := rmode f.rm.toNat ((f.opC cx l).toNat / 2 ^ (fm.width * e)) fm.width
  let read (w : Word) : FVal := fm.decode (elemOf f.ty w e)
  let a := if f.ng.getLsbD 0 then (read (f.opA cx l)).neg else read (f.opA cx l)
  let c := if f.ng.getLsbD 1 then (read (f.opC cx l)).neg else read (f.opC cx l)
  fm.round m (f.sat == 1) (g m a (read (f.opB cx l)) c)

/-- The sign bit of a code of a format given, the other bits kept. -/
def putSign (fm : FloatFmt) (code : Nat) (neg : Bool) : Nat :=
  code % 2 ^ (fm.e + fm.m) + if neg then 2 ^ (fm.e + fm.m) else 0

/-- What the VFP sign instructions give for codes a and b, a no NaN (R111). -/
def signResults : List ((FmtV → Instr) × (FloatFmt → Nat → Nat → Nat)) :=
  [(.vfabs, fun fm a _ => putSign fm a false),
   (.vfneg, fun fm a _ => putSign fm a (!a.testBit (fm.e + fm.m))),
   (.vfcpys, fun fm a b => putSign fm a (b.testBit (fm.e + fm.m)))]

/-- `r` is the lesser (`least`) or the greater of two codes that are no NaNs, −0 below +0 (R110). -/
def IsExtreme (fm : FloatFmt) (least : Bool) (a b r : Nat) : Prop :=
  ∃ x y, floatValue (fm.decode a) = some x ∧ floatValue (fm.decode b) = some y ∧ (r = a ∨ r = b) ∧
    (x < y → r = if least then a else b) ∧ (y < x → r = if least then b else a) ∧
    (x = y → a.testBit (fm.e + fm.m) ≠ b.testBit (fm.e + fm.m) →
      r = if a.testBit (fm.e + fm.m) = least then a else b)

/-- The conversions: source and destination of element `e` of VCVT, VPACK and VUNPK (R116). -/
def convertElem (f : FmtV) (rnd src : Word) (from_ e : Nat) : Nat :=
  let d := laneElem (f.imm8.toNat % 16)
  let m := rmode f.rm.toNat (rnd.toNat / 2 ^ (d.width * e)) d.width
  d.round m (f.sat == 1) ((laneElem f.ty.toNat).decode (elemOf f.ty src from_))

/-! ### Cross-lane instructions (R117 to R122) -/

/-- The quad exchanges and the source lane of each (R118). -/
def quadExchanges : List ((FmtV → Instr) × (FmtV → Nat → Nat)) :=
  [(.qswapx, fun _ l => l ^^^ 1), (.qswapy, fun _ l => l ^^^ 2), (.qswapd, fun _ l => l ^^^ 3),
   (.qbcast, fun f l => 4 * (l / 4) + f.imm8.toNat)]

/-- The shuffles and the lane that each lane fetches from, as a whole number (R118). -/
def shuffles : List ((FmtV → Instr) × (FmtV → Ctx → Nat → Int)) :=
  [(.vshfl, fun f cx l => (f.opB cx l).toNat), (.vshflup, fun f _ l => (l : Int) - f.imm8.toNat),
   (.vshfldn, fun f _ l => (l : Int) + f.imm8.toNat),
   (.vbcast, fun f cx _ =>
      if f.imm8 = 255 then
        (((List.range 96).find? fun p => (cx.participants f.km).getLsbD p).getD 96 : Nat)
      else (f.imm8.toNat : Int))]

/-- A cross-lane instruction writes its value to v[VD] in the participants, and goes on (R117). -/
def CrossResult (i : FmtV → Instr) (value : FmtV → Ctx → Nat → Word) : Prop :=
  ∀ (s : State) (cx : Ctx) (f : FmtV), s.ctx? = some cx →
    WritesLanes s cx (exec (i f) s) (cx.sp.nextPc f.lx) f.vd.toNat (cx.participants f.km) (value f cx)

/-- The participants in increasing order. -/
def partsOf (f : FmtV) (cx : Ctx) : List Nat :=
  (List.range 96).filter fun p => (cx.participants f.km).getLsbD p

/-- The combinations of VREDU and VSCAN that the table of R119 has, for two element codes of the type: integers of
`w` bits, and float codes as VFADD, VFMIN and VFMAX combine them. -/
def chainElem (f : FmtV) (x y : Nat) : Nat :=
  let w := if f.ty = 0 ∨ f.ty = 2 then 32 else 16
  let value (a : Nat) : Int := if a < 2 ^ (w - 1) then (a : Int) else (a : Int) - 2 ^ w
  let fm := laneFmt f.ty
  let m := rmode f.rm.toNat 0 w
  match f.imm8.toNat % 16 with
  | 0 => (x + y) % 2 ^ w
  | 1 => if value x ≤ value y then x else y
  | 2 => if value x ≤ value y then y else x
  | 3 => min x y
  | 4 => max x y
  | 5 => x &&& y
  | 6 => x ||| y
  | 7 => x ^^^ y
  | 8 => fm.round m (f.sat == 1) ((fm.decode x).add m (fm.decode y))
  | 9 => fm.minmax true x y
  | _ => fm.minmax false x y

/-- The identity of an operation, per element (R119): −0, +∞ and −∞ of the format for FADD, FMIN and FMAX. -/
def chainIdentity (f : FmtV) : Nat :=
  let w := if f.ty = 0 ∨ f.ty = 2 then 32 else 16
  let fm := laneFmt f.ty
  match f.imm8.toNat % 16 with
  | 1 => 2 ^ (w - 1) - 1
  | 2 => 2 ^ (w - 1)
  | 3 => 2 ^ w - 1
  | 5 => 2 ^ w - 1
  | 8 => 2 ^ (fm.e + fm.m)
  | 9 => (2 ^ fm.e - 1) * 2 ^ fm.m
  | 10 => 2 ^ (fm.e + fm.m) + (2 ^ fm.e - 1) * 2 ^ fm.m
  | _ => 0

/-- The chain over some lanes for element `e` (R120): the first value, a float NaN made canonical, combined with
those of the other lanes in their order; the identity of no lane. -/
def chainOver (f : FmtV) (cx : Ctx) (e : Nat) : List Nat → Nat
  | [] => chainIdentity f
  | l :: ls =>
    let x := elemOf f.ty (f.opA cx l) e
    ls.foldl (fun acc p => chainElem f acc (elemOf f.ty (f.opA cx p) e))
      (if 8 ≤ f.imm8.toNat % 16 ∧ (laneFmt f.ty).decode x = .nan then (laneFmt f.ty).nan else x)

/-- The types that an operation of VREDU and VSCAN accepts (R119). -/
def chainAccepts (f : FmtV) : Prop :=
  let op := f.imm8.toNat % 16
  op ≤ 4 ∧ (f.ty = 0 ∨ f.ty = 1) ∨ 5 ≤ op ∧ op ≤ 7 ∧ f.ty = 0 ∨ 8 ≤ op ∧ op ≤ 10 ∧ (f.ty = 2 ∨ f.ty = 3 ∨ f.ty = 4)

/-! ### System and control (R129 to R139, R154 to R167) -/

/-- The special registers by index, and what each reads as (R89). -/
def specials (s : State) (cx : Ctx) : List (Nat × Word) :=
  let help (w : Nat) : Word := BitVec.ofFnLE fun l : Fin 32 =>
    decide (cx.grp.nlanes ≤ 32 * w + l ∧ 32 * w + l < 4 * ((cx.grp.nlanes + 3) / 4))
  [(0, BitVec.ofNat 32 cx.grp.gid), (1, BitVec.ofNat 32 cx.blk.blockId), (2, BitVec.ofNat 32 cx.blk.gang),
   (3, BitVec.ofNat 32 cx.blk.launch), (4, BitVec.ofNat 32 cx.grp.nlanes), (5, BitVec.ofNat 32 cx.blk.groups),
   (6, BitVec.ofNat 32 cx.blk.gangSize), (7, BitVec.ofNat 32 cx.sp.id), (8, help 0), (9, help 1), (10, help 2),
   (11, BitVec.ofNat 32 cx.grp.cvm.toNat), (12, BitVec.ofNat 32 (cx.grp.cvm.toNat / 2 ^ 32)),
   (13, cx.grp.stat), (14, BitVec.ofNat 32 (s.cycle cx.core)), (15, cx.sp.cycHi), (16, cx.grp.prog),
   (17, BitVec.ofNat 32 cx.grp.trap.cause), (18, BitVec.ofNat 32 cx.grp.trap.pc.toNat),
   (19, BitVec.ofNat 32 (cx.grp.trap.pc.toNat / 2 ^ 32)), (20, cx.grp.trap.info), (21, cx.grp.cv.id),
   (22, cx.grp.cv.members), (23, cx.grp.cv.slip), (24, cx.grp.cv.off), (25, cx.grp.cv.stat),
   (26, cx.grp.cv.tmo), (27, BitVec.ofNat 32 (s.pgOf cx.blk).rank), (28, BitVec.ofNat 32 (s.pgOf cx.blk).size),
   (29, cx.blk.rollok), (30, cx.grp.cmds.batchNo), (31, cx.grp.cmds.batchDone),
   (32, BitVec.ofNat 32 cx.blk.depth), (33, BitVec.ofNat 32 (cx.core % 4)),
   (34, BitVec.ofNat 32 (cx.core / 4 % 16)), (35, BitVec.ofNat 32 (cx.core / 64))]

/-- What SWRITE makes of a group: CVM whole but its reserved bits, STAT by W1C but for the flags that the
hardware sets in this cycle, CVTMO; any other index is ignored (R133). -/
def specialWrite (i : Nat) (w : Word) (g : Group) : Group :=
  if i = 11 then { g with cvm := BitVec.ofNat 64 (g.cvm.toNat / 2 ^ 32 * 2 ^ 32 + w.toNat) }
  else if i = 12 then { g with cvm := BitVec.ofNat 64 (w.toNat % 2 ^ 16 * 2 ^ 32 + g.cvm.toNat % 2 ^ 32) }
  else if i = 13 then { g with stat := g.stat &&& ~~~(w &&& ~~~g.statNow) }
  else if i = 26 then { g with cv := { g.cv with tmo := w } }
  else g

/-- The target of a branch: the next word plus 8 × OFF24, modulo 2^56 (R49, R134). -/
def branchTarget (f : FmtB) (cx : Ctx) : DWord :=
  BitVec.ofInt 64 (((cx.sp.pc.toNat : Int) + 8 + 8 * f.off24.toInt) % 2 ^ 56)

/-- The address of the next word (R134). -/
def nextWord (cx : Ctx) : DWord := BitVec.ofNat 64 ((cx.sp.pc.toNat + 8) % 2 ^ 56)

/-- A group in which the hardware has set bits of STAT in this cycle (R91, R133). -/
def flagged (g : Group) (w : Word) : Group := { g with stat := g.stat ||| w, statNow := g.statNow ||| w }

/-- A split but for its entry, and the cycle from which it may issue, which a move sets (R146). -/
def unplaced (p : Split) : Split := { p with place := 0, readyAt := 0 }

/-- A group but for those of its splits. -/
def unplacedGroup (g : Group) : Group := { g with splits := g.splits.map unplaced }

/-- An armed rejoin register with a waiter, of which no missing lane can still arrive (R158, R159). -/
def MeetsRelease (g : Group) (n : Nat) : Prop :=
  let r := tget {} g.j n
  r.state = 1 ∧ (∃ p ∈ g.running, p.eff = 1 ∧ p.wj = n) ∧
    ∀ l, l < 96 → r.expected.getLsbD l = true → r.arrived.getLsbD l = false →
      ∀ p ∈ g.running, p.wait ≠ 1 → p.wait ≠ 2 → p.domain.getLsbD l = false

/-- The rejoin registers evaluated: the first from j0 that meets the condition begins to release, unless a
release is in progress (R159, R160). -/
def Evaluated (now : Nat) (a b : Group) : Prop :=
  let busy := ∃ kj ∈ a.j, kj.2.state = 2
  ((busy ∨ ∀ n, n < 8 → ¬ MeetsRelease a n) ∧ b = a) ∨
  (¬ busy ∧ ∃ n, n < 8 ∧ MeetsRelease a n ∧ (∀ m, m < n → ¬ MeetsRelease a m) ∧
    let r := tget {} a.j n
    b = { a with j := tset {} a.j n { r with state := 2, start := now,
                                              partialRel := decide (r.arrived ≠ r.expected) } })

/-- A split that merges the splits `w`: id, PC and s56 to s59 of the lowest id, the unions of the domains
and of the execs, PRIO 1 (R160, R163). -/
def MergerOf (w : List Split) (fmt : Split → Word) (wait : Nat) (m : Split) : Prop :=
  (∃ p ∈ w, (∀ q ∈ w, p.id ≤ q.id) ∧ m.id = p.id ∧ m.pc = p.pc ∧ m.fmt = fmt p ∧ m.s56 = p.s56 ∧
    m.s57 = p.s57 ∧ m.s58 = p.s58 ∧ m.s59 = p.s59) ∧ m.prio = true ∧ m.eff = wait ∧
  (∀ l, m.domain.getLsbD l = w.any fun p => p.domain.getLsbD l) ∧
  ∀ l, m.exec.getLsbD l = w.any fun p => p.exec.getLsbD l

/-- The splits `w` of a group replaced by a merger of them, whose lanes lose their reservations (R152); no split is
left for what loads and receives bring to the own registers of those merged (R142), and a merger that stays dormant
is written into its paddock entry (R146). -/
def MergesTo (a : Group) (w : List Split) (fmt : Split → Word) (wait : Nat) (b : Group) : Prop :=
  ∃ m, MergerOf w fmt wait m ∧
    let h := (Group.clearResv { a with
      splits := (a.splits.filter fun p => !(w.any fun q => decide (q.id = p.id) && (q.handler == p.handler)))
        ++ [m] } m.domain).orphan
    b = if 64 ≤ m.place then flagged h 8 else h

/-- Whether a split waits in an RJSET or RJOIN for rejoin register `n` to be idle (R155, R156). -/
def awaitsRegister (g : Group) (n : Nat) (p : Split) : Bool :=
  p.handler == g.trap.active && p.eff == 3 && match p.waitI with
    | some (.rjset f) => f.jr.toNat == n
    | some (.rjoin f) => f.jr.toNat == n
    | _ => false

/-- Those splits are ready, to issue their instruction again from the next cycle on (R149, R155, R156). -/
def woken (g : Group) (n now : Nat) : Group :=
  { g with splits := g.splits.map fun p => if awaitsRegister g n p then
      { p.setEff 0 with waitI := none, await := .none, idle := 0, due := false, grace := 0, readyAt := now + 1 }
    else p }

/-- The merge at BAR: the running splits that all wait there become one (R163). -/
def BarMerged (a b : Group) : Prop :=
  if a.running ≠ [] ∧ ∀ p ∈ a.running, p.eff = 2 then MergesTo a a.running (·.fmt) 2 b else b = a

/-- The rejoin registers evaluated, and freed entries taken (R146, R159). -/
def Resettled (now : Nat) (a g : Group) : Prop := ∃ b, Evaluated now a b ∧ unplacedGroup g = unplacedGroup b

/-- What follows an arrival at BAR or an exit: the merge at BAR, and the evaluation (R146, R159, R163). -/
def Settled (now : Nat) (a g : Group) : Prop := ∃ m, BarMerged a m ∧ Resettled now m g

/-- An event or instruction of the group in slot `g` of core `c` answers a next state: its own group is as
`own` says, and all else stays but for the entries of dormant splits that move in and for journals (R146,
R216). -/
def Settles (s : State) (c g : Nat) (o : Out) (own : Group → Prop) : Prop :=
  ∃ t y, o = .next t ∧ t.group? c g = some y ∧ own y ∧
    (∀ k n, k ≠ c ∨ n ≠ g → (t.group? k n).map unplacedGroup = (s.group? k n).map unplacedGroup) ∧
    (∀ k b, (t.block? k b).map Block.rest = (s.block? k b).map Block.rest) ∧
    (∀ k, (t.core k).rest = (s.core k).rest) ∧ t.rest = s.rest

/-- The issuing group with its issuing split changed. -/
def withIssuing (cx : Ctx) (f : Split → Split) : Group :=
  { cx.grp with splits := cx.grp.splits.map fun p => if cx.grp.issues cx.sp.id p then f p else p }

/-- A division: the incumbent keeps its entry with exec `m` at `pc` and the domain lanes of no other path;
each other path becomes a new split with its lanes, fmt and s56 to s59 copied, PRIO 0 (R135, R136). -/
def Divides (s : State) (cx : Ctx) (o : Out) (m : LaneMask) (pc : DWord) (news : List (LaneMask × DWord)) :
    Prop :=
  ∃ t g fresh, o = .next t ∧ t.mark = .done ∧ t.grpAt cx = some g ∧ g.regs = cx.grp.regs ∧
    g.splits = (cx.grp.splits.map fun p => if cx.grp.issues cx.sp.id p then
        ({ p with exec := m, prio := true,
                  domain := p.domain &&& ~~~(news.foldl (fun a (n : LaneMask × DWord) => a ||| n.1) 0) }).goOn pc
      else p) ++ fresh ∧
    (fresh.map fun p => (p.exec, p.domain, p.pc)) = (news.map fun n => (n.1, n.1, n.2)) ∧
    (∀ p ∈ fresh, p.fmt = cx.sp.fmt ∧ p.s56 = cx.sp.s56 ∧ p.s57 = cx.sp.s57 ∧ p.s58 = cx.sp.s58 ∧
      p.s59 = cx.sp.s59 ∧ p.prio = false ∧ p.wait = 0 ∧ p.handler = cx.sp.handler) ∧
    (fresh.map (·.id)).Nodup ∧ (∀ p ∈ fresh, ∀ q ∈ cx.grp.splits, p.id ≠ q.id) ∧
    g.stat = (if fresh.any fun p => decide (64 ≤ p.place) then cx.grp.stat ||| 8 else cx.grp.stat) ∧
    g.resv = (cx.grp.resv.filter fun r => !cx.sp.domain.getLsbD r.1) ∧ g.j = cx.grp.j ∧
    g.trap = cx.grp.trap ∧ KeepsOthers s t cx {}

/-- The target of lane `l` at BDIVX (R136). -/
def laneTarget (f : FmtB) (cx : Ctx) (l : Nat) : Nat :=
  (((cx.sp.pc.toNat : Int) + 8 + 8 * f.off24.toInt + (cx.v f.sa.toNat l).toNat) % 2 ^ 56).toNat

/-- Lanes of a mask in increasing order. -/
def lanes (m : LaneMask) : List Nat := (List.range 96).filter fun l => m.getLsbD l

/-- The target that an active lane takes: a misaligned helper takes that of the lowest active non-helper
lane, or falls through (R136). -/
def takenTarget (f : FmtB) (cx : Ctx) (l : Nat) : Nat :=
  if laneTarget f cx l % 8 = 0 then laneTarget f cx l
  else
    match (lanes (cx.sp.exec &&& ~~~cx.helpers)).head? with
    | some q => laneTarget f cx q
    | none => (cx.sp.pc.toNat + 8) % 2 ^ 56

/-- The paths of a BDIVX, each with its lanes, in increasing order of their lowest lane (R136). -/
def lanePaths (f : FmtB) (cx : Ctx) : List (LaneMask × DWord) :=
  ((lanes cx.sp.exec).filter fun l =>
    (lanes cx.sp.exec).all fun k => decide (l ≤ k) || takenTarget f cx k != takenTarget f cx l).map fun l =>
      (BitVec.ofFnLE fun k : Fin 96 => cx.sp.exec.getLsbD k && takenTarget f cx k == takenTarget f cx l,
        BitVec.ofNat 64 (takenTarget f cx l))

/-- Whether no split of a core stands in table entry `n`, and no ended group keeps it (R199). -/
def entryIsFree (x : Core) (n : Nat) : Bool :=
  x.groups.all fun kg => (kg.2.splits.all fun p => p.place != n) && !kg.2.kept.contains n

/-- The table entries that a division may take: 0 to 61, or 63 alone in a handler (R144, R165). -/
def freeEntries (x : Core) (handler : Bool) : Nat :=
  (if handler then [63] else List.range 62).countP (entryIsFree x)

/-- The free entries of a block's paddock, which has `n` of them (R144, R145). -/
def freePads (x : Core) (b n : Nat) : Nat :=
  (List.range n).countP fun i => x.groups.all fun kg => kg.2.block != b ||
    ((kg.2.splits.all fun p => p.place != 64 + i) && !kg.2.kept.contains (64 + i))

/-- The group in a slot is gone, or stands ended without splits until its commands are done (R139, R199). -/
def GroupGone (t : State) (c g uid : Nat) : Prop :=
  ∀ y, t.group? c g = some y → y.uid = uid → y.ended = true ∧ y.splits = []

/-- BDIV (R135, R144): a split whose active lanes all go one way branches whole; else it divides, and the path
of HINT keeps the entry; without room it traps SPLITOVF. A group has at most 96 splits, one for each lane. -/
def bdivDivides : Prop :=
  ∀ (s : State) (cx : Ctx) (f : FmtB), s.ctx? = some cx →
    let m : LaneMask := if f.neg = 1 then ~~~cx.k f.kc.toNat else cx.k f.kc.toNat
    let taken := cx.sp.exec &&& m
    let fall := cx.sp.exec &&& ~~~m
    let room := (s.core cx.core).newPlace cx.grp.block cx.blk.padN cx.sp.handler
    let o := exec (.bdiv f) s
    (taken = 0 → Completes s cx o (nextWord cx) {} fun _ => True) ∧
    (taken ≠ 0 → fall = 0 → Completes s cx o (branchTarget f cx) {} fun _ => True) ∧
    (taken ≠ 0 → fall ≠ 0 → room ≠ none → cx.grp.splits.length ≤ 96 →
      if f.hint = 1 then Divides s cx o taken (branchTarget f cx) [(fall, nextWord cx)]
      else Divides s cx o fall (nextWord cx) [(taken, branchTarget f cx)]) ∧
    (taken ≠ 0 → fall ≠ 0 → room = none → cx.sp.handler = false → Traps s cx o 0x11 1 cx.sp.pc)

/-- BDIVX (R136): a misaligned target of an active launched lane traps ALIGN with the lowest such lane; else
the split branches whole when one target is left, and otherwise the lanes divide by target, the path of the
lowest lane keeping the entry. The new splits take the free table entries and then free entries of the paddock;
without room for all of them it traps SPLITOVF with their number (R144). -/
def bdivxDivides : Prop :=
  ∀ (s : State) (cx : Ctx) (f : FmtB), s.ctx? = some cx →
    let o := exec (.bdivx f) s
    match (lanes (cx.sp.exec &&& ~~~cx.helpers)).find? fun l => laneTarget f cx l % 8 != 0 with
    | some l => cx.sp.handler = false → Traps s cx o 0x03 (BitVec.ofNat 32 l) cx.sp.pc
    | none =>
      match lanePaths f cx with
      | [] => Completes s cx o (nextWord cx) {} fun _ => True
      | [g] => Completes s cx o g.2 {} fun _ => True
      | g :: news =>
        let free := freeEntries (s.core cx.core) cx.sp.handler +
          freePads (s.core cx.core) cx.grp.block cx.blk.padN
        (news.length ≤ free → cx.grp.splits.length + news.length ≤ 97 → Divides s cx o g.1 g.2 news) ∧
        (free < news.length → cx.sp.handler = false →
          Traps s cx o 0x11 (BitVec.ofNat 32 news.length) cx.sp.pc)

/-- RJSET (R155): it waits while its register is releasing; it begins a partial release of an armed register
with waiters and waits; else it arms the register and goes on. -/
def rjsetArms : Prop :=
  ∀ (s : State) (cx : Ctx) (f : FmtB), s.ctx? = some cx → cx.sp.wait = 0 ∨ cx.sp.wait = 3 →
    let n := f.jr.toNat
    let r := tget {} cx.grp.j n
    let waits := ∃ p ∈ cx.grp.running, p.eff = 1 ∧ p.wj = n
    let wait (p : Split) : Split := { p with wait := 3, await := .none, waitI := some (.rjset f) }
    Settles s cx.core cx.slot (exec (.rjset f) s) fun g =>
      (r.state = 2 → g = withIssuing cx wait) ∧
      (r.state = 1 → waits → g = { withIssuing cx wait with
        j := tset {} cx.grp.j n { r with state := 2, start := s.now, partialRel := true } }) ∧
      (r.state ≠ 2 → r.state ≠ 1 ∨ ¬ waits → ∃ b, g = { b with
          splits := b.splits.map fun p => if b.issues cx.sp.id p then p.goOn (nextWord cx) else p } ∧
        Evaluated s.now { withIssuing cx (fun p => { p with wait := 0 }) with
          j := tset {} cx.grp.j n { state := 1, sfmt := cx.sp.fmt, expected := cx.sp.exec } } b)

/-- RJOIN (R156): it waits while its register is releasing; at an idle register it sets STAT.JLOST and goes
on; at an armed one its active lanes arrive, the split waits, and the registers are evaluated (R159). -/
def rjoinArrives : Prop :=
  ∀ (s : State) (cx : Ctx) (f : FmtB), s.ctx? = some cx →
    let n := f.jr.toNat
    let r := tget {} cx.grp.j n
    Settles s cx.core cx.slot (exec (.rjoin f) s) fun g =>
      (r.state = 2 → g = withIssuing cx fun p =>
        { p with wait := 3, await := .none, waitI := some (.rjoin f) }) ∧
      (r.state = 0 → ∃ b, Evaluated s.now (flagged cx.grp 1) b ∧ g = { b with
          splits := b.splits.map fun p => if b.issues cx.sp.id p then p.goOn (nextWord cx) else p }) ∧
      (r.state ≠ 0 → r.state ≠ 2 → Resettled s.now
        { withIssuing cx (fun p => { p with wait := 1, wj := n, pc := nextWord cx, await := .none,
                                            waitI := none }) with
          j := tset {} cx.grp.j n { r with arrived := r.arrived ||| cx.sp.exec } } g)

/-! ### Rollback (R215 to R221, R226) -/

/-- A record of the journal in the form in which records are made: what a register or a line held, by
address (R216). -/
def recordForm : JRec → Prop
  | .vreg _ _ r old => twf 0 old = true ∧ ∀ kv ∈ old, 96 * r ≤ kv.1 ∧ kv.1 < 96 * r + 96
  | .line _ a old _ _ => twf 0 old = true ∧ ∀ kv ∈ old, 32 * a ≤ kv.1 ∧ kv.1 < 32 * a + 32
  | .sealing .. => True

/-- Whether a record is of that line, or of that vector register of a group, by its number. -/
def ofLine (c a : Nat) : JRec → Bool
  | .line h l .. => decide (h = c ∧ l = a / 32)
  | _ => false
def ofVreg (uid r : Nat) : JRec → Bool
  | .vreg _ u v _ => decide (u = uid ∧ v = r)
  | _ => false

/-- What a record held at an address. -/
def heldByte (a : Nat) : JRec → Byte
  | .line _ _ old .. => tget 0 old a
  | _ => 0
def heldWord (i : Nat) : JRec → Word
  | .vreg _ _ _ old => tget 0 old i
  | _ => 0

/-- A block of core `x`, in slot `b`, of whose journal a rollback can be told: it holds no error, its records
have their form, one for each item, and one record of each group, which stands on the core under a number of
its own; and the table has an entry for each of them. -/
structure Recorded (x : Core) (b : Nat) (k : Block) : Prop where
  sound : k.jbad = false
  forms : ∀ r ∈ k.jrecs, recordForm r
  lines : ∀ c a, (k.jrecs.filter (ofLine c a)).length ≤ 1
  vregs : ∀ u r, (k.jrecs.filter (ofVreg u r)).length ≤ 1
  groups : (k.grecs.map fun kr => kr.2.uid).Nodup
  here : k.gone = [] ∧ ∀ kr ∈ k.grecs, ∃ g y, tfind? x.groups g = some y ∧ y.block = b ∧ y.uid = kr.2.uid
  numbered : (x.groups.map fun kg => kg.2.uid).Nodup
  room : k.grecs.length ≤ freeEntries { x with groups := x.groups.filter fun kg => kg.2.block != b } false

/-- The block in slot `b` of core `c`, which was `k`, has been rolled back (R219, R220): bytes and vector
registers are as recorded, or as they were where nothing is recorded; each group has one ready split at its
recorded PC, its recorded scalar, mask and rejoin registers and STAT.RBACK; its queued stores and its loads are
gone, and so are the messages and receives of the interval, which S and R count no more (the model's choice, log
entry 78); the global writes of the interval that are in flight are called off (log entry 69); and a new interval
is open. -/
structure RolledBack (s t : State) (c b : Nat) (k : Block) (dbl : Bool) : Prop where
  bytes : ∀ h a, t.spadByte h a = match k.jrecs.find? (ofLine h a) with
    | some r => heldByte a r
    | none => s.spadByte h a
  groups : ∀ g y n r, s.group? c g = some y → (n, r) ∈ k.grecs → y.uid = r.uid →
    ∃ z p, t.group? c g = some z ∧ z.splits = [p] ∧ p.pc = r.split.pc ∧ p.wait = 0 ∧ p.exec = r.split.exec ∧
      p.domain = r.split.domain ∧ p.fmt = r.split.fmt ∧ z.regs.s = r.s ∧ z.regs.k = r.k ∧ z.j = r.j ∧
      z.cvm = r.cvm ∧ z.cv.tmo = r.cvtmo ∧ z.stat.getLsbD 4 = true ∧ z.trap.active = false ∧
      z.q.stores = [] ∧ z.q.loads = [] ∧ z.q.out = (y.q.out.filter fun m => m.interval != k.interval) ∧
      z.cmds.s = y.cmds.s - (y.q.out.countP fun m => m.interval == k.interval) ∧
      z.cmds.r = y.cmds.r - (y.q.posted.countP fun p => p.interval == k.interval) ∧ z.resv = [] ∧
      ∀ v l, l < 96 → tget 0 z.regs.v (96 * v + l) = match k.jrecs.find? (ofVreg y.uid v) with
        | some x => heldWord (96 * v + l) x
        | none => tget 0 y.regs.v (96 * v + l)
  block : ∃ z, t.block? c b = some z ∧ z.interval = k.interval + 1 ∧ z.exposed = false ∧ z.dbl = (dbl || k.dbl)
  drams : ∀ d a, t.dramByte d a = s.dramByte d a
  fly : t.fly = s.fly.map fun f =>
    if f.core = c ∧ f.block = b ∧ f.buid = k.uid ∧ f.interval = k.interval then { f with off := true } else f

/-- The block in slot `b` of core `c`, which was `k`, has failed (R221): its groups have ended, and its task is
to be queued again, or its launch is marked faulted with the cause. -/
structure BlockFailed (s t : State) (c b : Nat) (k : Block) (cause : Nat) : Prop where
  groups : ∀ g y, s.group? c g = some y → y.block = b → y.ended = false → GroupGone t c g y.uid
  fault : (k.task = none ∨ k.committed = true) →
    (∃ g y, s.group? c g = some y ∧ y.block = b ∧ y.ended = false) →
    ∀ l, s.launch? k.launch = some l → l.fault = none →
      ((t.launch? k.launch).bind (·.fault)).map (·.cause) = some cause

/-! ### The scratchpad (R172 to R187) -/

/-- The first check that an access of `b` bytes at an offset fails (R173). -/
def accessCause (s : State) (p : Loc) (loads stores : Bool) (off b : Nat) : Option Nat :=
  if off % b ≠ 0 then some 0x03
  else if p.valid = false then some 0x05
  else if p.limit < off + b then some 0x04
  else if stores ∧ s.spadSealed p.home (p.base + off) b then some 0x06
  else if loads ∧ ∃ a ∈ (List.range b).map (p.base + off + ·), tget false (s.core p.home).poison (a / 32) then
    some 0x07
  else none

/-- The lowest launched lane of a list that fails, with its cause. -/
def lowestBad (cx : Ctx) (ls : List Nat) (bad : Nat → Option Nat) : Option (Nat × Nat) :=
  ((ls.filter (· < cx.grp.nlanes)).filterMap fun l => (bad l).map fun c => (l, c)).head?

/-- An access whose lowest failing lane traps with its cause, the lane in TRAPINFO and bit 9 for a handle, and
that otherwise does as `run` says (R173). -/
def Checked (s : State) (cx : Ctx) (o : Out) (p : Loc) (bad : Option (Nat × Nat)) (run : Prop) : Prop :=
  match bad with
  | some (l, c) => cx.sp.handler = false →
    Traps s cx o c (BitVec.ofNat 32 (l + if p.handle = none then 0 else 512)) cx.sp.pc
  | none => run

/-- A byte of the scratchpad of core `home` as some stores in order leave it: of the latest of them that covers it,
else of memory (R187). -/
def byteBefore (s : State) (stores : List StoreOp) (home a : Nat) : Byte :=
  match ((stores.filter fun o => o.home == home).flatMap (·.cells)).reverse.find? (·.1 == a) with
  | some c => c.2
  | none => s.spadByte home a

/-- What a scalar register of a split with a domain holds after a write: exec takes only lanes of the domain
(R85). -/
def landedIn (domain : LaneMask) (n : Nat) (v : Word) : Word :=
  if n < 61 then v else v &&& domain.extractLsb' (32 * (n - 61)) 32

/-- Word `w` of `n` bytes, low byte first, zeros above them (R12, R176). -/
def wordOf (n w : Nat) (g : Nat → Byte) : Word :=
  BitVec.ofNat 32 (((List.range 4).map fun i =>
    if 4 * w + i < n then (g (4 * w + i)).toNat * 256 ^ i else 0).sum)

/-- Byte `i` of the registers from `r` up, low register first (R176). -/
def regByte (read : Nat → Word) (r i : Nat) : Byte :=
  BitVec.ofNat 8 ((read (r + i / 4)).toNat / 256 ^ (i % 4))

/-- The bytes of a store at an address (R176). -/
def cellsFrom (a n : Nat) (g : Nat → Byte) : List (Nat × Byte) := (List.range n).map fun i => (a + i, g i)

/-- Registers of an access: 1, or 2 and 4 for 8 and 16 bytes (R50). -/
def accessWords (f : FmtM) : Nat := (2 ^ f.sz.toNat + 3) / 4

/-- What a memory byte is after the cells are written in order. -/
def lastCell (cells : List (Nat × Byte)) (a : Nat) (old : Byte) : Byte :=
  match cells.reverse.find? (·.1 == a) with
  | some c => c.2
  | none => old

/-- A group after a write of the cells: reservations of the granules written are cleared (R179). -/
def unreserve (cells : List (Nat × Byte)) (y : Group) : Group :=
  { y with resv := y.resv.filter fun r => !cells.any fun c => decide (c.1 / 8 * 8 = r.2) }

/-- A core after a write of the cells: the bytes, and lines that are covered whole lose their poison and
non-resident bits (R175, R202). -/
def written (cells : List (Nat × Byte)) (x : Core) : Core :=
  let lines := linesOf cells
  let clear (t : Tbl Bool) : Tbl Bool := lines.foldl (fun t l => if covers cells l then tset false t l false else t) t
  { x with spad := cells.foldl (fun t c => tset 0 t c.1 c.2) x.spad
           poison := clear x.poison, nonres := clear x.nonres }

/-- The effect of a write of the cells to the scratchpad of core `home`. -/
def Effect.storing (home : Nat) (cells : List (Nat × Byte)) (cx : Ctx) (own : Group → Group := id)
    (vs ss : List Nat := []) : Effect :=
  { vs, ss, bytes := cells.map fun c => (home, c.1)
    core := fun c x => if c = home then written cells x else x
    other := fun c y => if c = home then unreserve cells y else y
    group := fun y => own (if cx.core = home then unreserve cells y else y) }

/-- An instruction held at issue: nothing changes (R186, R206). -/
def Held (s : State) (o : Out) : Prop := o = .next { s with mark := .held }

/-- The instruction waits in its split (WAIT 3), keeping `a`, its PC unchanged (R143). -/
def Waits (s : State) (cx : Ctx) (o : Out) (i : Instr) (a : Await) (e : Effect := {}) : Prop :=
  ∃ t p, o = .next t ∧ t.mark = .waiting ∧ t.splitAt cx = some p ∧ p.wait = 3 ∧ p.await = a ∧
    p.waitI = some i ∧ p.pc = cx.sp.pc ∧ Keeps s t cx e

/-- The new values of the scratchpad atomics on elements of b bytes, from the old value, x and n (R181). -/
def atomics : List ((FmtM → Instr) × (Nat → Nat → Nat → Nat → Nat)) :=
  let signed (b v : Nat) : Int := (BitVec.ofNat (8 * b) v).toInt
  [(.aadd, fun b o x _ => (o + x) % 256 ^ b), (.asub, fun b o x _ => (o + 256 ^ b - x) % 256 ^ b),
   (.amin, fun b o x _ => if signed b x < signed b o then x else o),
   (.amax, fun b o x _ => if signed b o < signed b x then x else o),
   (.aminu, fun _ o x _ => min o x), (.amaxu, fun _ o x _ => max o x),
   (.aand, fun _ o x _ => Nat.land o x), (.aor, fun _ o x _ => Nat.lor o x),
   (.axor, fun _ o x _ => Nat.xor o x), (.axchg, fun _ _ x _ => x),
   (.acas, fun _ o x n => if o = x then n else o),
   (.afadd, fun _ o x _ => fp32.round .rne false (FVal.add .rne (fp32.decode o) (fp32.decode x)) % 2 ^ 32)]

/-- The number in `n` bytes at an address, low byte first (R12). -/
def numberAt (m : Nat → Byte) (a n : Nat) : Nat := ((List.range n).map fun i => (m (a + i)).toNat * 256 ^ i).sum

/-- What the lanes of an atomic leave, one after another in the order given (R182): the bytes of memory, the
cells written in order, and each lane's old value. -/
def atomicRun (b : Nat) (adr : Nat → Nat) (new : Nat → Nat → Nat) :
    List Nat → (Nat → Byte) → List (Nat × Byte) × (Nat → Nat)
  | [], _ => ([], fun _ => 0)
  | l :: ls, m =>
    let old := numberAt m (adr l) b
    let cells := cellsFrom (adr l) b fun i => BitVec.ofNat 8 (new l old / 256 ^ i)
    let rest := atomicRun b adr new ls fun a => lastCell cells a (m a)
    (cells ++ rest.1, fun k => if k = l then old else rest.2 k)

/-- A lane whose STCND finds its reservation: it holds its granule, and no lower lane of the instruction has
stored to that granule (R178). -/
def reservationHolds (cx : Ctx) (ls : List Nat) (adr : Nat → Nat) (l : Nat) : Bool :=
  let match_ (k : Nat) : Bool := decide (k < cx.grp.nlanes) && tfind? cx.grp.resv k == some (adr k / 8 * 8)
  match_ l && ls.all fun k => !(decide (k < l) && match_ k && decide (adr k / 8 = adr l / 8))

/-! ### Fences, commands, messages, tasks (R184 to R210, R227 to R232, R302 to R305) -/

/-- A core after a FENCE has closed ranges of 64-byte blocks for an ASID: held copies are discarded and fetches
in flight will be (R367). -/
def closeRanges (asid : Nat) (rs : List (Nat × Nat)) (x : Core) : Core :=
  let hit (a b : Nat) : Bool := decide (a = asid) && rs.any fun r => decide (r.1 ≤ b ∧ b ≤ r.2)
  { x with code := x.code.filter fun k => !hit k.asid k.block
           fetches := x.fetches.map fun k => if hit k.asid k.block then { k with dropped := true } else k }

/-- A FENCE's waits are over: the first `n` stores and `m` loads of its group have performed and the named fetches
have returned (R184, R187, R367). -/
def FenceOver (s : State) (cx : Ctx) (n m : Nat) (l : List Nat) : Prop :=
  n ≤ cx.grp.q.stOut ∧ m ≤ cx.grp.q.ldOut ∧ ∀ k ∈ (s.core cx.core).fetches, k.id ∉ l

/-- A request to the owner die of a global address, which is to leave the core (R303, R305, R308). -/
def asks (s : State) (cx : Ctx) (a len scope : Nat) (undo : Bool) : Effect :=
  let r : Ask := { id := s.uidSeq, core := cx.core, slot := cx.slot, uid := cx.grp.uid, split := cx.sp.id
                   blockUid := cx.blk.uid, vf := cx.blk.vf, asid := cx.blk.asid, addr := a, len, scope
                   block := cx.grp.block, interval := cx.blk.interval }
  { core := fun c x => if c = cx.core then { x with asks := x.asks ++ [(r, undo)] } else x
    machine := fun t => { t with uidSeq := t.uidSeq + 1 } }

/-- A command as accepted (R191, R197). -/
def acceptedCmd (s : State) (cx : Ctx) (q : Nat) (w : List Word) : Cmd :=
  { seq := s.uidSeq, queue := q, w, slot := cx.slot, uid := cx.grp.uid, block := cx.grp.block
    buid := cx.blk.uid, interval := cx.blk.interval, vf := cx.blk.vf, asid := cx.blk.asid
    launch := cx.blk.launch, fences := cx.grp.cmds.fences, acceptedAt := s.now
    stream := (w.getD 0 0).getLsbD 18 && cx.grp.cv.id != 0 }

/-- The status word of batch `n` (R197): NOTMADE, UNKNOWN, or the count of commands, the status bits and DONE
when no command is outstanding. -/
def batchWord (k : GCmds) (n : Word) : Word :=
  if k.notMade n then 0x40
  else
    match tfind? k.batches n.toNat with
    | none => 0x80
    | some b => BitVec.ofNat 32 (min 255 b.count * 2 ^ 16) ||| b.status ||| if b.open_ = 0 then 1 else 0

/-- A message of the issuing group (R205, R309). -/
def messageOf (cx : Ctx) (kind chan : Nat) (dest grid : Word) (payload : List Word) : Msg :=
  { kind, chan, dest, grid, payload, src := cx.core, srcSlot := cx.slot, srcUid := cx.grp.uid, part := cx.blk.vf }

/-- The group hands a message out and counts it in S (R200, R210). -/
def sends (cx : Ctx) (m : Msg) : Effect :=
  { group := fun g => { g with q := { g.q with
                                 out := g.q.out ++ [{ stores := g.q.stIn, msg := m, interval := cx.blk.interval }] }
                               cmds := { g.cmds with s := g.cmds.s + 1 } } }

/-- A destination word with a reserved bit set (R205). -/
def badDest (w : Word) : Bool := decide (w.toNat / 2 ^ 14 % 64 ≠ 0 ∨ w.toNat % 64 ≠ 0)

/-- The first receive on a free channel binds it to the block with a new generation (R204). -/
def boundChan (cx : Ctx) (ch : Nat) (x : Core) : Core :=
  let e := tget {} x.chans ch
  if ch ≠ 63 ∧ e.state = 0 then
    { x with chans := tset {} x.chans ch { gen := (e.gen + 1) % 4096, block := cx.grp.block, state := 1 } }
  else x

/-- The receive status word (R206): the channel's generation, the sender's die, cluster and core, and the number
of words; only the generation when no message was there. -/
def receiveWord (gen src count : Nat) : Word :=
  BitVec.ofNat 32 (gen * 2 ^ 20 + if count = 0 then 0 else
    (src / 64) * 2 ^ 18 + (src / 4 % 16) * 2 ^ 14 + (src % 4) * 2 ^ 12 + count)

/-- Whether a block may receive on a channel (R204). -/
def mayReceive (x : Core) (block ch : Nat) : Prop :=
  let e := tget {} x.chans ch
  ch = 63 ∨ e.state = 0 ∨ (e.state = 1 ∧ e.block = block)

/-- A group gone on waiting in a task of a handle, or a split that has just issued on it. -/
def looksAt (cx : Ctx) (now n : Word) : Prop := cx.sp.await = .word n ∨ (cx.sp.await = .none ∧ n = now)

/-- A core has room for a block of `n` groups, and neither a checkpoint nor a reset holds its VF (R230, R376,
R379, R380). -/
def Room (s : State) (c vf n foot size : Nat) : Prop :=
  (s.core c).hasRoom n foot size = true ∧ s.ckptHolds vf = false ∧ (s.fn vf).resetting = false

/-- A block has been started on a core: it stands in the free slot and range of lowest number, its allocation
holds the spad image and zeros above it, and each group stands in a free slot with one ready split at its entry,
its present lanes active and its start words in s0 up (R79, R83, R171). -/
def BlockStarted (s t : State) (c : Nat) (b : Block) (gs : List NewGroup) : Prop :=
  ∃ slot base k, (s.core c).freeSlot = some slot ∧ (s.core c).allocAt b.size = some base ∧
    t.block? c slot = some k ∧
    (k.base = base ∧ k.size = b.size ∧ k.padN = b.padN ∧ k.launch = b.launch ∧ k.vf = b.vf ∧ k.asid = b.asid ∧
      k.priv = b.priv ∧ k.gang = b.gang ∧ k.blockId = b.blockId ∧ k.gangSize = b.gangSize ∧ k.task = b.task ∧
      k.amsg = b.amsg ∧ k.depth = b.depth ∧ k.trapEntry = b.trapEntry ∧ k.groups = gs.length ∧
      k.exposed = false) ∧
    (∀ a, a < b.size → t.spadByte c (base + a) = ((s.object? b.launch).map (·.image) |>.getD []).getD a 0) ∧
    ∀ g ∈ gs, ∃ n y p, s.group? c n = none ∧ t.group? c n = some y ∧ y.block = slot ∧ y.gid = g.gid ∧
      y.nlanes = g.lanes ∧ y.foot = g.foot ∧ y.splits = [p] ∧ p.id = 0 ∧ p.pc = g.entry ∧ p.wait = 0 ∧
      p.exec = presentMask g.lanes ∧ p.domain = presentMask g.lanes ∧ p.prio = true ∧
      ∀ i, tget 0 y.regs.s i = (g.words.take 16).getD i 0

/-- A message enters the landing order of its core no more: it is taken out, and its sender's S counts down
(R200, R207). -/
def Landed (s t : State) (c : Nat) (m : Msg) (rest : List Msg) : Prop :=
  (t.core c).landing = rest ∧
    ∀ d g y, (s.unland c m).findGroup m.srcUid = some (d, g) → s.group? d g = some y →
      ∃ z, t.group? d g = some z ∧ z.cmds.s = y.cmds.s - 1

/-- A task descriptor's words that are out of range, lowest first (R228, R230). -/
def badDescriptor (s : State) (launch : Nat) (w0 w1 w2 : Word) : Option Nat :=
  let pad := w1.toNat / 2 ^ 12 % 2 ^ 7
  let regs8 := w1.toNat / 2 ^ 8 % 16
  let nl := w1.toNat % 2 ^ 7
  if 64 ≤ w0.toNat ∨ (s.handler? launch w0.toNat).isNone then some 0
  else if 2 ^ 19 ≤ w1.toNat ∨ w1.getLsbD 7 = true ∨ 96 < pad ∨ regs8 = 0 ∨ nl = 0 ∨ 96 < nl then some 1
  else if w2.toNat < 64 * pad ∨ 2 ^ 20 < w2.toNat then some 2
  else none

/-- The task that SPAWN queues (R228 to R230). -/
def spawnedTask (s : State) (cx : Ctx) (gen : Nat) (w0 w1 w2 w3 : Word) : Task :=
  { gen, state := 1, order := s.uidSeq, entry := w0.toNat, lanes := w1.toNat % 2 ^ 7
    foot := 8 * (w1.toNat / 2 ^ 8 % 16), padN := w1.toNat / 2 ^ 12 % 2 ^ 7, spad := w2.toNat, arg := w3
    depth := cx.blk.depth + 1, vf := cx.blk.vf, asid := cx.blk.asid, priv := cx.blk.priv
    launch := cx.blk.launch, trapEntry := cx.blk.trapEntry, spawner := cx.grp.uid }

/-- The block that a task starts (R230). -/
def taskBlock (e : Task) (owner t : Nat) : Block :=
  { vf := e.vf, asid := e.asid, priv := e.priv, launch := e.launch, size := allocSize e.spad, padN := e.padN
    trapEntry := e.trapEntry, depth := e.depth, task := some (owner, t, e.gen) }

/-- Its one group, with the argument in s0. -/
def taskGroup (e : Task) (h : ProgInfo) : NewGroup :=
  { gid := 0, lanes := e.lanes, foot := e.foot, entry := h.entry, words := [e.arg] }

/-- Task entry `t` of core `c`. -/
def taskAt (s : State) (c t : Nat) : Task := tget {} (s.core c).tasks t

/-! ### Buffers, the matrix engine and convoys (R244 to R276, R288 to R300) -/

/-- The buffer entry that a handle names changed, in its core (R244). -/
def withBuf (cx : Ctx) (h : Word) (f : Buf → Buf) (c : Nat) (x : Core) : Core :=
  if c = handleHome cx.core h then
    { x with bufs := tset {} x.bufs (handleIdx h) (f (tget {} x.bufs (handleIdx h))) } else x

/-- A buffer entry freed: its generation is incremented, 0 left out (R244, R247). -/
def emptied (e : Buf) : Buf := { gen := if 4095 ≤ e.gen then 1 else e.gen + 1 }

/-- HGIVE or HDROP must still wait for its handle (R248): a store of the block through it, a command of the block
or a matrix entry that is not a held loop's names it, or a store issued before it has not performed. -/
def busyHandle (s : State) (cx : Ctx) (h : Word) (stores : Nat) : Prop :=
  (∃ kg ∈ (s.core cx.core).groups, kg.2.block = cx.grp.block ∧ ∃ o ∈ kg.2.q.stores, o.handle = some h) ∨
  (∃ m ∈ (s.core cx.core).cmds, m.block = cx.grp.block ∧ m.names h = true) ∨
  (∃ e ∈ (s.cluster (cx.core / 4)).entries, e.core = cx.core ∧ e.buid = cx.blk.uid ∧
    ¬ (e.kind = 2 ∧ e.state = 2) ∧ e.names h = true) ∨
  cx.grp.q.stOut < stores

/-- An HGIVE of the group of a lower number waits to give to the same queue of the same block (R246). -/
def givesLater (cx : Ctx) (f : FmtE) (num : Nat) : Prop :=
  ∃ p ∈ cx.grp.splits, p.eff = 3 ∧ ∃ h stores m, p.await = .give h stores m (f.imm16.toNat % 4) f.ch.toNat ∧ m < num

/-- A handle on its way into queue CH of block IMM16 of the gang (R246 to R250, R277): it waits behind earlier ones
of the group, while it is busy (`own`), and while the queue is full; its buffer is freed when the block has ended,
and else it enters the queue, of a saved block too, which must then return to the core and slot it left. `e` is what the instruction has changed
before, to make state `u`. -/
def gives (s u : State) (cx : Ctx) (f : FmtE) (o : Out) (i : Instr) (own : Bool) (h : Word) (stores num : Nat)
    (e : Effect) : Prop :=
  let q := f.ch.toNat
  let wait := Waits s cx o i (.give h stores num (f.imm16.toNat % 4) q) e
  (givesLater cx f num ∨ (own = true ∧ busyHandle u cx h stores) → wait) ∧
  (¬ givesLater cx f num → ¬ (own = true ∧ busyHandle u cx h stores) →
  match u.gangBlock cx (f.imm16.toNat % 4) with
  | .gone => Completes s cx o (cx.sp.nextPc f.lx)
      { e with core := fun c x => withBuf cx h emptied c (e.core c x)
               block := fun k => { k with exposed := true } } fun _ => True
  | .here c b k =>
    if 16 ≤ u.inQueue k.uid q then wait
    else
      let into (k : Block) : Block := { k with hq := tset [] k.hq q (tget [] k.hq q ++ [h]) }
      let own := decide (c = cx.core ∧ b = cx.grp.block)
      Completes s cx o (cx.sp.nextPc f.lx)
        { e with
          core := fun n x => withBuf cx h
            (fun y => { y with state := 2, hq := q, hcore := c % 4, hblk := b, buid := k.uid }) n (e.core n x)
          block := fun k => { (if own then into k else k) with exposed := true }
          otherBlock := fun n m k => if n = c ∧ m = b then into k else k } fun _ => True
  | .saved c v =>
    if 16 ≤ u.inQueue v.block.uid q then wait
    else
      let into (k : Block) : Block := { k with hq := tset [] k.hq q (tget [] k.hq q ++ [h]), pinSlot := true }
      Completes s cx o (cx.sp.nextPc f.lx)
        { e with
          core := fun n x =>
            let y := withBuf cx h
              (fun y => { y with state := 2, hq := q, hcore := c % 4, hblk := v.slot, buid := v.block.uid }) n
              (e.core n x)
            if n = c then { y with saved := y.saved.map fun w => if w = v then
              { w with block := into w.block, late := w.late || !w.block.pinSlot } else w } else y
          block := fun k => { k with exposed := true } } fun _ => True)

/-- The handle status word (R252): the buffer's state and length and the BLOCKID of its holder or queue; 0 for a
handle that names nothing. -/
def bufferWord (s : State) (cx : Ctx) (h : Word) : Word :=
  let e := s.handleBuf cx.core h
  let c := cx.core / 4 * 4 + e.hcore
  if h.toNat % 2 ^ 10 ≠ 0 ∨ e.gen ≠ h.toNat / 2 ^ 20 ∨ e.state = 0 then 0
  else if e.state = 2 then BitVec.ofNat 32 (3 * 2 ^ 26 + s.blockIdOf e.buid * 2 ^ 24 + e.len32)
  else if c = cx.core ∧ e.hblk = cx.grp.block then BitVec.ofNat 32 (1 * 2 ^ 26 + e.len32)
  else BitVec.ofNat 32 (2 * 2 ^ 26 + s.blockIdAt c e.hblk * 2 ^ 24 + e.len32)

/-- TRAPINFO of a HANDLE trap of a CLU instruction (R254). -/
def handleReasonInfo (r : Nat) : Word := BitVec.ofNat 32 (127 + 512 + r * 2 ^ 24)

/-- The reservation entry of an MTX instruction (R258, R261). -/
def matrixEntry (s : State) (cx : Ctx) (kind tile imm slot : Nat) (a b : List Word) : MEntry :=
  { num := (s.cluster (cx.core / 4)).nextNum, slot, kind, core := cx.core, gslot := cx.slot, uid := cx.grp.uid
    block := cx.grp.block, buid := cx.blk.uid, launch := cx.blk.launch, gang := cx.blk.gang, split := cx.sp.id
    handler := cx.sp.handler, tile, imm, fmt := cx.sp.fmt, cvm := cx.grp.cvm, a, b, at_ := s.now }

/-- The issue of an MTX instruction other than MSTAT (R260, R275): nothing without a launched lane; held until
the group's stores have performed; MATRIXCHK when the engine is offline; a status it shows is reported; a range
it may not access traps; with no free entry it waits; else its entry is made, a loop counts in T, and an MDRAIN
waits for it. -/
def EntersEngine (s : State) (cx : Ctx) (f : FmtE) (i : Instr) (kind tile imm : Nat) (a b : List Word)
    (status : Option (Nat × Nat)) (ranges : List MRange) : Prop :=
  let x := s.cluster (cx.core / 4)
  let o := exec i s
  let next := cx.sp.nextPc f.lx
  if cx.anyLaunched = false then Completes s cx o next {} fun _ => True
  else if cx.grp.q.stores ≠ [] then Held s o
  else if x.offline = true then cx.sp.handler = false → Traps s cx o 0x09 0xFF cx.sp.pc
  else
    match status, mtxRanges s cx ranges, x.freeSlot with
    | some _, _, none => Waits s cx o i .none
    | some (code, opnd), _, some slot => Completes s cx o next
      { block := fun k => { k with exposed := true }
        group := fun g => { g with mstat := BitVec.ofNat 32 (min 255 (g.mstat.toNat / 2 ^ 24 + 1) * 2 ^ 24 +
          slot * 2 ^ 16 + tile * 2 ^ 14 + opnd * 2 ^ 12 + code) } } fun _ => True
    | none, some r, _ => cx.sp.handler = false → Traps s cx o r.cause (r.info 0xFF) cx.sp.pc
    | none, none, none => Waits s cx o i .none
    | none, none, some slot =>
      let e : Effect :=
        { block := fun k => { k with exposed := true }
          group := fun g => if kind = 2 then { g with cmds := { g.cmds with t := g.cmds.t + 1 } } else g
          machine := fun t => t.modCluster (cx.core / 4) fun x => { x with
            entries := x.entries ++ [matrixEntry s cx kind tile imm slot a b], nextNum := x.nextNum + 1 } }
      if kind = 3 then Waits s cx o i (.drain x.nextNum) e else Completes s cx o next e fun _ => True

/-- An entry has left the reservation table of a cluster, and a counted loop its group's T (R258, R260). -/
def EntryLeft (s t : State) (k : Nat) (e : MEntry) : Prop :=
  (t.cluster k).entries = (s.cluster k).entries.filter fun y => decide (y.num ≠ e.num)

/-- One entry of a reservation table changed. -/
def entriesWith (s : State) (k num : Nat) (f : MEntry → MEntry) : List MEntry :=
  (s.cluster k).entries.map fun e => if e.num = num then f e else e

/-- The word of a tile of a cluster. -/
def accWord (s : State) (k tile m n : Nat) : Word := (s.cluster k).tileWord tile m n

/-! ### Engine commands (R189 to R202, R357, R358, R399, R403) -/

/-- The command of that number at core `c`. -/
def cmdAt (s : State) (c seq : Nat) : Option Cmd := (s.core c).cmds.find? fun m => decide (m.seq = seq)

/-- A started command that may act: it has work, is not stopped, its fences and its acquire let it read and
write, and the device is not in diagnostic fixed-latency mode (R184, R363). -/
structure Acting (s : State) (c : Nat) (m : Cmd) : Prop where
  found : cmdAt s c m.seq = some m
  started : m.startedAt ≠ none
  going : m.stopped = false
  work : m.empty = false
  fences : s.fencesOk c m = true
  acquire : s.acqOk c m = true
  pace : s.fixlat = false

/-- A command without its record of the scratchpad lines that it has written in pieces (R175, R193). -/
def untraced (m : Cmd) : Cmd := { m with clean := [], present := [] }

/-- The act is made; the command stands changed, and `also` holds. -/
def Acts (c : Nat) (m : Cmd) (o : Out) (f : Cmd → Cmd) (also : State → Prop) : Prop :=
  ∃ t, o = .next t ∧ (cmdAt t c m.seq).map untraced = some (untraced (f m)) ∧ also t

/-- The first cycle in which a command may decide its next unit once it has issued one (R332). -/
def nextUnit (s : State) (m : Cmd) : Nat := if 1 ≤ m.op ∧ m.op ≤ 3 then s.now + 1 else m.nextAt

/-- Bytes `l` stand at `a` in the scratchpad of core `h`; every other scratchpad byte is as before. -/
def Put (s t : State) (h a : Nat) (l : List Byte) : Prop :=
  ∀ x y, t.spadByte x y = if x = h ∧ a ≤ y ∧ y < a + l.length then l.getD (y - a) 0 else s.spadByte x y

/-- The unit request of a command, from its number, kind, address and length (R57, R340). -/
def unitRequest (s : State) (c : Nat) (m : Cmd) (kind a len : Nat) : Req :=
  { id := s.uidSeq, core := c, seq := m.seq, uid := m.uid, launch := m.launch, vf := m.vf, asid := m.asid
    kind, va := a, len, lat := (m.w.getD 0 0).getLsbD 19 }

/-- The request has left toward its die, and the next number is taken. -/
def Sent (s t : State) (r : Req) : Prop :=
  ∃ u, State.sendReq { s with uidSeq := s.uidSeq + 1 } r = some u ∧ t.dies = u.dies

/-! ### The mesh and the fabric (R307 to R328, R392 to R403) -/

/-- The number of a waiting head in the cyclic order of its class at a port (R319). -/
def turnOf (p : Port) (h : Head) : Nat :=
  let last := if h.slot.pkt.cls = 0 then p.ptrLat else p.ptrBulk
  (4 * h.inp + 2 * h.slot.pkt.route + h.slot.pkt.kind + 20 - (last + 1) % 20) % 20

/-- The class that the weighted round-robin serves when both classes or only one wait (R318), and the counts of
the port after it. -/
def servedClass (x : Die) (p : Port) (lat bulk : Bool) : Nat × Nat :=
  let wlat := max 1 (x.mesharb.toNat % 16)
  let wbulk := max 1 (x.mesharb.toNat / 16 % 16)
  if lat = true ∧ bulk = true then
    if p.n < (if p.cur = 0 then wlat else wbulk) then (p.cur, p.n + 1) else (1 - p.cur, 1)
  else
    let c := if lat = true then 0 else 1
    if c = p.cur then (c, p.n + 1) else (c, 1)

/-- The head granted has left by output port `q` of router `r` of die `d` (R319, R324, R326, R328): its port's
pointer and counter follow, its buffer no longer holds its copy, and the copy stands where the port leads, or
leaves the mesh at the next cycle. -/
def Left (s t : State) (d r q : Nat) (h : Head) : Prop :=
  let pkt := h.slot.pkt
  let copy := { pkt with dests := pkt.dests.filter fun x => decide (portFor d r pkt x = q) }
  let p := (s.die d).port r q
  let p' := (t.die d).port r q
  let rest := ((s.die d).buf r h.inp h.vc).tail
  let todo := h.slot.todo.filter (· != q)
  (if pkt.cls = 0 then p'.ptrLat = h.queue ∧ p'.txlat = p.txlat + 1 ∧ p'.txbulk = p.txbulk
   else p'.ptrBulk = h.queue ∧ p'.txbulk = p.txbulk + 1 ∧ p'.txlat = p.txlat) ∧
  p'.nextAt = s.now + 1 ∧
  (if pkt.flits = 2 then p'.body = some (8 * h.inp + h.vc) ∧
      (t.die d).buf r h.inp h.vc = { h.slot with body := true } :: rest
   else p'.body = none ∧ if todo = [] then ((t.die d).buf r h.inp h.vc).map (·.pkt) = rest.map (·.pkt)
     else (t.die d).buf r h.inp h.vc = { h.slot with todo } :: rest) ∧
  match leadsTo r q with
  | .router r' i => (t.die d).buf r' i copy.vc = (s.die d).buf r' i copy.vc ++
      [{ pkt := copy, todo := portsOf d r' copy, since := s.now + 2, short := decide (pkt.flits = 2) }]
  | .bridge lane x => ∃ since, tget [] (t.die (d ^^^ x)).lanes (laneKey lane (x == 2) copy.vc) =
      tget [] (s.die (d ^^^ x)).lanes (laneKey lane (x == 2) copy.vc) ++ [{ pkt := copy, todo := [], since }]
  | _ => (t.die d).leaving = (s.die d).leaving ++ if pkt.flits = 2 then [] else [(8 * r + q, copy)]

/-- An output port that may grant: its cycle has come, no body flit follows, and due heads are promoted (R317,
R320). -/
structure MayGrant (s : State) (d r q : Nat) : Prop where
  router : r < 16
  port : q < 5
  due : ((s.die d).port r q).nextAt ≤ s.now
  clear : ((s.die d).port r q).body = none
  aged : ∀ h ∈ s.waiting d r q, tget 0 h.slot.ages q < max 1 ((s.die d).mesharb.toNat / 2 ^ 16 % 256) ∨
    q ∈ h.slot.promoted
  own : ∀ h ∈ s.waiting d r q, h.slot.pkt.vc = h.vc ∧ h.slot.pkt.cls < 2 ∧ h.slot.pkt.kind < 2 ∧
    h.slot.pkt.route < 2

/-- The answer to a packet of a fabric command, of its class and at the hub that holds it (R393, R397, R403). -/
def answerTo (p : FabPkt) (st : Word) : FabPkt :=
  { kind := if p.kind = 3 then 4 else 2, key := p.key, src := p.dst, dst := p.src, core := p.core, seq := p.seq
    status := st, cls := p.cls, hub := p.hub }

/-- A fabric packet enters its die's mesh from the link hub at router 12 or 15 as the packet `x` (R312, R390). -/
def FromHub (s t : State) (p : FabPkt) (router : Nat) (x : Packet) : Prop :=
  (t.die p.hub).bufs = (Die.inject (s.die p.hub) p.hub (if router = 12 then 32 else 33) router
    (if router = 12 then pW else pE) s.now [p.link] x).bufs

/-- That input takes the packet in this cycle (R307, R315). -/
def HubFree (s : State) (p : FabPkt) (router : Nat) (x : Packet) : Prop :=
  (s.die p.hub).canInject (if router = 12 then 32 else 33) router (if router = 12 then pW else pE) s.now [p.link] x
    = true

/-! ### Scheduling, launches, host registers, saves and the debugger (R150, R214, R372 to R389) -/

/-- An event for a function: written at its queue's write pointer, which moves on, with its kind and cause; a full
queue drops it (R377). -/
def EventFor (s t : State) (f kind cause : Nat) : Prop :=
  let q := s.fn f
  let a := q.evbase.toNat + 64 * (q.evwp.toNat % 2 ^ q.evsize)
  if (q.evwp - q.evrp).toNat = 2 ^ q.evsize then (t.fn f).evdrop = true ∧ (t.fn f).evwp = q.evwp
  else (t.fn f).evwp = q.evwp + 1 ∧ t.hostByte a = BitVec.ofNat 8 kind ∧
    t.hostByte (a + 1) = BitVec.ofNat 8 cause

/-- A resident ready split that has not issued for the fairness period (R150). -/
structure Starved (y : Group) (p : Split) : Prop where
  calm : y.trap.active = false
  loose : y.claimed = false
  plain : p.handler = false
  notYet : p.due = false
  resident : p.place < 64
  ready : p.wait = 0
  long : 256 ≤ p.idle

/-- A split that holds a reservation (R151). -/
def reserves (y : Group) (p : Split) : Prop := ∃ r ∈ y.resv, p.domain.getLsbD r.1 = true

/-- The record that a queue of a function offers next (R372). -/
def nextRecord (s : State) (f q : Nat) : List Byte :=
  let u := (s.fn f).queue q
  tblBytes s.hostMem (u.base.toNat + 256 * (u.qrp.toNat % 2 ^ u.size)) 256

/-- The RES field of CTXCMD and its GO bit (R388). -/
def ctxResult (s : State) : Nat × Bool := (s.pf.ctxcmd.toNat / 2 ^ 28 % 8, s.pf.ctxcmd.getLsbD 31)

/-- The RES field of DBGCMD and its GO bit (R389). -/
def dbgResult (s : State) (c : Nat) : Nat × Bool :=
  ((s.core c).dbgcmd.toNat / 2 ^ 24 % 16, (s.core c).dbgcmd.getLsbD 31)

/-- The STATUS field of CKPT and its GO bit (R381). -/
def ckptResult (s : State) : Nat × Bool := (s.pf.ckpt.toNat / 2 ^ 60 % 8, s.pf.ckpt.getLsbD 63)

/-! ### Encoding, issue and reset -/

/-- Words written out from the field tables of R38, R44, R47, R49, R50 and R51, with their literals: one of each
major of R53. -/
def spelled : List (DWord × DWord × Instr) :=
  [
   (0x0460000140000009, 0x0, .sread { lx := 0, km := 0, sa := 0, sb := 0, sd := 5, ch := 0, q := 0, imm16 := 9 }),
   (0x0810240400FFFFFD, 0x0, .bsc { lx := 0, km := 0, sa := 9, kc := 0, jr := 0, hint := 0, neg := 1, imm10 := 0, off24 := 16777213 }),
   (0x10000C403FFFFFF9, 0x0, .sadd { lx := 0, km := 0, sd := 3, sa := 4, sb := 0, imm := 1, imm29 := 536870905, lit := 0 }),
   (0x1402061028000000, 0x0, .kand { lx := 0, km := 2, vd := 3, va := 4, vb := 5, vc := 0, ty := 0, rm := 0, sat := 0, bsc := 0, csc := 0, ng := 0, imm8 := 0, lit := 0 }),
   (0x2009040400000800, 0x12345678, .vadd { lx := 1, km := 1, vd := 2, va := 1, vb := 0, vc := 0, ty := 0, rm := 0, sat := 0, bsc := 1, csc := 0, ng := 0, imm8 := 0, lit := 305419896 }),
   (0x2424021C40000000, 0x0, .vclt { lx := 0, km := 4, vd := 1, va := 7, vb := 8, vc := 0, ty := 0, rm := 0, sat := 0, bsc := 0, csc := 0, ng := 0, imm8 := 0, lit := 0 }),
   (0x2830224899423100, 0x0, .vfma { lx := 0, km := 0, vd := 17, va := 18, vb := 19, vc := 20, ty := 2, rm := 1, sat := 1, bsc := 0, csc := 0, ng := 1, imm8 := 0, lit := 0 }),
   (0x2C20428800020000, 0x0, .vsqrt { lx := 0, km := 0, vd := 33, va := 34, vb := 0, vc := 0, ty := 2, rm := 0, sat := 0, bsc := 0, csc := 0, ng := 0, imm8 := 0, lit := 0 }),
   (0x3000061400000002, 0x0, .vcvt { lx := 0, km := 0, vd := 3, va := 5, vb := 0, vc := 0, ty := 0, rm := 0, sat := 0, bsc := 0, csc := 0, ng := 0, imm8 := 2, lit := 0 }),
   (0x34400C1C40000000, 0x0, .vshfl { lx := 0, km := 0, vd := 6, va := 7, vb := 8, vc := 0, ty := 0, rm := 0, sat := 0, bsc := 0, csc := 0, ng := 0, imm8 := 0, lit := 0 }),
   (0x40030850233FFFF0, 0x0, .lds { lx := 0, km := 3, vds := 4, sbase := 10, voff := 2, nov := 0, sz := 3, scope := 3, imm20 := 1048560 }),
   (0x44A0105022300000, 0x0, .acas { lx := 0, km := 0, vds := 8, sbase := 10, voff := 2, nov := 0, sz := 2, scope := 3, imm20 := 0 }),
   (0x4800000000400000, 0x0, .fence { lx := 0, km := 0, vds := 0, sbase := 0, voff := 0, nov := 0, sz := 0, scope := 4, imm20 := 0 }),
   (0x5000400140030000, 0x0, .push { lx := 0, km := 0, sa := 16, sb := 0, sd := 5, ch := 0, q := 3, imm16 := 0 }),
   (0x5400048007000004, 0x0, .send { lx := 0, km := 0, sa := 1, sb := 8, sd := 0, ch := 7, q := 0, imm16 := 4 }),
   (0x58301801C0000000, 0x0, .tstat { lx := 0, km := 0, sa := 6, sb := 0, sd := 7, ch := 0, q := 0, imm16 := 0 }),
   (0x6010000243000000, 0x0, .htake { lx := 0, km := 0, sa := 0, sb := 0, sd := 9, ch := 3, q := 0, imm16 := 0 }),
   (0x6440000000000002, 0x0, .mzero { lx := 0, km := 0, sa := 0, sb := 0, sd := 0, ch := 0, q := 0, imm16 := 2 }),
   (0x6800106200000000, 0x0, .cvjoin { lx := 0, km := 0, sa := 4, sb := 6, sd := 8, ch := 0, q := 0, imm16 := 0 })]

/-- The word of 8 bytes at an address of a fetched block, low byte first (R12, R38). -/
def wordIn (k : Code) (a : Nat) : DWord :=
  BitVec.ofNat 64 ((List.range 8).map fun j => (k.bytes.getD (a % 64 + j) 0).toNat * 256 ^ j).sum

/-- Whether a word takes a literal: LX is 1 in a major of format V or S (R40, R53). -/
def hasLiteral (w : DWord) : Bool :=
  w.getLsbD 51 && [4, 5, 8, 9, 10, 11, 12, 13].contains (w.toNat / 2 ^ 58)

/-! ### Translation, memory stops, host ports and fetches (R280 to R285, R303 to R305, R337 to R371, R408) -/

/-- The splits of a group that asked an owner die for `a` are answered `w` (R298, R303, R305). -/
def Answered (s t : State) (a : Ask) (w : Word) : Prop :=
  ∀ y p, s.group? a.core a.slot = some y → y.uid = a.uid → p ∈ y.splits → p.await = .asked a.id →
    ∃ z, t.group? a.core a.slot = some z ∧ { p with await := .answered w } ∈ z.splits

/-- The stored bytes and side bytes of a die's memory. -/
def memoryOf (s : State) (d : Nat) : Tbl Byte × Tbl Byte := ((s.die d).hbm, (s.die d).side)

/-- A unit written: encrypted, with its check bytes and MAC (R348). -/
def wroteUnit (s : State) (d : Nat) (r : Req) (l : List Byte) : Tbl Byte × Tbl Byte :=
  let x := (s.die d).writeUnit r.leaf r.vf r.pa l
  (x.hbm, x.side)

/-- A unit as it stands decodes to these bytes: it is in no poison record or quarantine, and at most
correctable (R348, R351, R354). -/
def Clean (s : State) (d : Nat) (r : Req) (l : List Byte) : Prop :=
  let x := s.die d
  (s.stop d (stopOfPa r.pa)).recorded r.pa (granBytes r.leaf.gran) = false ∧ x.quarantined r.leaf r.pa = false ∧
    decodeUnit r.leaf r.vf r.pa (x.stored r.leaf.gran r.pa).1 (x.stored r.leaf.gran r.pa).2 =
      .good l (x.stored r.leaf.gran r.pa).1 false

/-- A request that a stop may take: none to its unit that arrived before it waits there (R281). -/
def MayTake (y : Stop) (r : Req) : Prop :=
  r ∈ y.inq ∧ ∀ q ∈ y.inq.takeWhile (fun q => decide (q.id ≠ r.id)), q.pa ≠ r.pa

/-- A stop whose choice among the requests that it may take is set (R9). -/
def aimed (s : State) (d n a : Nat) : State := s.modStop d n fun y => { y with aim := a }

/-- A request without what it has seen of the poison record and the quarantines (R355). -/
def unseen (r : Req) : Req := { r with recorded := false, quar := false }

/-- A write in flight without the mark that another of its block has performed (R368). -/
def unparted (f : Fly) : Fly := { f with part := none }

/-- Request number `id` has left the queue of its stop, and no write of that number is in flight. -/
def LeftStop (s t : State) (d n id : Nat) : Prop :=
  (t.stop d n).inq.map unseen = ((s.stop d n).inq.filter fun q => decide (q.id ≠ id)).map unseen ∧
    t.fly.map unparted = (s.fly.filter fun f => decide (f.id ≠ id)).map unparted

/-- The split that asked still waits for the answer (R303). -/
def Asking (s : State) (a : Ask) : Prop :=
  ∃ g, s.group? a.core a.slot = some g ∧ g.uid = a.uid ∧ ∃ p ∈ g.splits, p.await = .asked a.id

/-- The owner die sends the confirmation `w` of a request, a reply of the latency class in the partition of the
VF (R303, R308, R311). -/
def Confirms (s t : State) (d : Nat) (a : Ask) (w : Word) : Prop :=
  (t.die d).outCtl = (s.die d).outCtl ++ [{ dests := [(a.core / 64, a.core / 4 % 16, 0)], route := 0, kind := 1
                                            cls := 0, part := a.vf, payload := .confirm a w }]

/-- The interval in which a block asked is exposed, when it is still the current one (R217). -/
def ExposesAsk (s t : State) (a : Ask) : Prop :=
  ∀ g k, s.group? a.core a.slot = some g → g.uid = a.uid → s.block? a.core g.block = some k →
    k.interval = a.interval → ∃ z, t.block? a.core g.block = some z ∧ z.exposed = true

/-- Whether a write of a request meets a seal entry of its VF (R303). -/
def meetsSeal (s : State) (d : Nat) (r : Req) (n : Nat) : Bool :=
  (s.die d).gseals.any fun e => decide (e.vf = r.vf ∧ r.va < e.addr + e.len ∧ e.addr < r.va + n)

/-- The new value of an engine atomic of `b` bytes, by operation number (R181, R194). -/
def engineAtomic (op b old x n : Nat) : Nat :=
  match atomics[op]? with
  | some y => y.2 b old (x % 256 ^ b) (n % 256 ^ b)
  | none => old

/-- The bytes of a number, low byte first (R12). -/
def bytesOf (w n : Nat) : List Byte := (List.range n).map fun i => BitVec.ofNat 8 (w / 256 ^ i)

/-- Bytes `o` up of a unit replaced. -/
def replaced (d : List Byte) (o : Nat) (l : List Byte) : List Byte := d.take o ++ l ++ d.drop (o + l.length)

end Sys2Proof.Claims

open Sys2Proof Sys2Proof.Machine Sys2Proof.Claims

/-- SALU arithmetic (R124): for every form of operand b, the instruction completes, writes the exact result
modulo 2^32 to s[SD], goes on at the next word and changes nothing else. -/
def Obligations.ScalarArithmetic : Prop :=
  ScalarResults fun cx f => scalarArith (f.opA cx) (f.opB cx)

/-- SALU logic and shifts (R124): for every form of operand b, SAND, SOR, SXOR and SANDN write their bitwise
result and SSHL, SSHR, SSAR and SROT shift or rotate a by b[4:0]; each writes s[SD] alone and goes on at the
next word. -/
def Obligations.ScalarLogicAndShifts : Prop :=
  ScalarResults fun cx f => scalarLogic (f.opA cx) (f.opB cx)

/-- SALU comparisons, SSEL, moves and bit counts, and the short form of SLI (R124, R125); the long form of SLI
writes its 64-bit literal to the pair s[SD], s[SD+1], low half first (R125). -/
def Obligations.ScalarComparesAndMoves : Prop :=
  (ScalarResults fun cx f => scalarOther f (cx.s f.sd.toNat) (f.opA cx) (f.opB cx)) ∧
  ∀ (s : State) (cx : Ctx) (f : FmtS), s.ctx? = some cx → f.sd.toNat % 2 = 0 →
    Completes s cx (exec (.sliLong f) s) (cx.sp.nextPc f.lx)
      { ss := [f.sd.toNat, f.sd.toNat + 1] } fun t =>
        t.sAt cx f.sd.toNat = some (landed cx f.sd.toNat (BitVec.ofNat 32 f.lit.toNat)) ∧
          t.sAt cx (f.sd.toNat + 1) =
            some (landed cx (f.sd.toNat + 1) (BitVec.ofNat 32 (f.lit.toNat / 2 ^ 32)))

/-- VINT arithmetic (R100): each element of each lane that takes part receives the exact result reduced to
its width, or clamped; nothing else changes. -/
def Obligations.LaneArithmetic : Prop := ∀ x ∈ laneArith, ElementResult x

/-- VINT logic, shifts and bit counts (R100, R101): in each lane that takes part, each element gets the
bitwise result, the shift or rotation by the count modulo its width, or the bit count or reversal; nothing
else changes. -/
def Obligations.LaneLogicAndShifts : Prop := ∀ x ∈ laneLogic, ElementResult x

/-- VBFX returns the width bits of a that start at bit pos, zero-extended, or sign-extended with sx = 1; VBFI puts
the low width bits of a into c at pos (R102): pos is b[4:0], width b[13:8] and at most 32, and a width of 0 gives 0
or c. VSEL takes a in the lanes whose bit of kS is 1 and b elsewhere, and VMOV copies b (R103). -/
def Obligations.LaneFieldsAndMoves : Prop := ∀ x ∈ laneMoves, LaneResult x.1 x.2

/-- Mask logic (R127, R128): k[VD] takes the result in the lanes that take part, by the bits that ka and kb
have there; all other bits, and k0, are kept. KFROMS (R128): lanes 32w to 32w + 31 that take part get the
bits of b. -/
def Obligations.MaskLogic : Prop :=
  ∀ (s : State) (cx : Ctx) (f : FmtV), s.ctx? = some cx →
    (∀ x ∈ maskLogic,
      WritesMask s cx (exec (x.1 f) s) (cx.sp.nextPc f.lx) (f.vd.toNat % 8) (cx.active f.km) fun l =>
        x.2 ((cx.k (f.va.toNat % 8)).getLsbD l) ((cx.k (f.vb.toNat % 8)).getLsbD l)) ∧
    WritesMask s cx (exec (.kfroms f) s) (cx.sp.nextPc f.lx) (f.vd.toNat % 8)
      (cx.active f.km &&& BitVec.ofFnLE fun l : Fin 96 => decide (l.val / 32 = f.imm8.toNat)) fun l =>
        (f.opB cx 0).getLsbD (l - 32 * f.imm8.toNat)

/-- KTOS, KPOPC and KFIRST (R128) write their scalar once per issue, even when no lane takes part; VMOVS
(R104) writes s[VD] when lane IMM8 is a participant, and otherwise keeps it. -/
def Obligations.MasksAndLanesToScalars : Prop :=
  ∀ (s : State) (cx : Ctx) (f : FmtV), s.ctx? = some cx →
    (∀ x ∈ maskScalars f cx,
      WritesScalar s cx (exec (x.1 f) s) (cx.sp.nextPc f.lx) (f.vd.toNat % 64) x.2) ∧
    (if (cx.participants f.km).getLsbD f.imm8.toNat then
      WritesScalar s cx (exec (.vmovs f) s) (cx.sp.nextPc f.lx) (f.vd.toNat % 64)
        (cx.v f.va.toNat f.imm8.toNat)
    else Completes s cx (exec (.vmovs f) s) (cx.sp.nextPc f.lx) {} fun _ => True)

/-- Integer comparisons (R105, R106): each lane of the domain gets 1 when it takes part and the relation
holds for its element, else 0; lanes outside the domain, and k0, are kept. -/
def Obligations.LaneCompares : Prop :=
  ∀ (s : State) (cx : Ctx) (f : FmtV), s.ctx? = some cx → ∀ x ∈ intRelations,
    WritesMask s cx (exec (x.1 f) s) (cx.sp.nextPc f.lx) (f.vd.toNat % 8) cx.sp.domain fun l =>
      let a := (comparedElem f (f.opA cx l)).2
      let b := (comparedElem f (f.opB cx l)).2
      (cx.active f.km).getLsbD l && x.2 a.toNat b.toNat a.toInt b.toInt

/-- Float comparisons (R105, R107): the ordered relations compare the exact values and are false with a NaN,
VFCUN is true with one, and zeros of either sign are equal. VFCLASS: a lane's bit is set when the class of
its element of a is in the set b[7:0]. -/
def Obligations.FloatCompares : Prop :=
  ∀ (s : State) (cx : Ctx) (f : FmtV), s.ctx? = some cx →
    (∀ x ∈ floatRelations, ∃ r : Nat → Bool,
      WritesMask s cx (exec (x.1 f) s) (cx.sp.nextPc f.lx) (f.vd.toNat % 8) cx.sp.domain r ∧
      ∀ l, l < 96 → (r l = true ↔ (cx.active f.km).getLsbD l = true ∧
        x.2 (floatValue ((laneFmt f.ty).decode (elemOf f.ty (f.opA cx l) (f.imm8.toNat % 2))))
          (floatValue ((laneFmt f.ty).decode (elemOf f.ty (f.opB cx l) (f.imm8.toNat % 2)))))) ∧
    WritesMask s cx (exec (.vfclass f) s) (cx.sp.nextPc f.lx) (f.vd.toNat % 8) cx.sp.domain fun l =>
      (cx.active f.km).getLsbD l &&
        (f.opB cx l).getLsbD (classOf (laneFmt f.ty) (elemOf f.ty (f.opA cx l) (f.imm8.toNat % 2)))

/-- Float arithmetic (R108, R109, R113): VFADD to VFNMS, VRCP, VRSQ, VSQRT and VDIV write, for each element,
the exact result rounded once; nothing else changes. -/
def Obligations.FloatArithmetic : Prop :=
  ∀ x ∈ floatArith, LaneResult x.1 fun f cx l => buildElems f.ty (floatElem f x.2 cx l)

/-- Rounding leaves a representable value unchanged in every mode, with or without SAT (R33, R36): each code
of each float format that is no NaN rounds to itself. -/
def Obligations.CodesRoundToThemselves : Prop :=
  ∀ fm ∈ [fp32, bf16, fp16, e5m2, e4m3, e3m4, e2m1], ∀ code < 2 ^ fm.width,
    fm.decode code ≠ .nan → ∀ (rm r : Nat) (sat : Bool),
      fm.round (rmode rm r fm.width) sat (fm.decode code) = code

/-- NaNs (R108, R109, R114): the canonical NaN is 0x7FC00000, 0x7FC0 and 0x7E00; a NaN among the operands that an
instruction uses gives it, and so do ∞ − ∞, 0 × ∞ in either order, 0 / 0, ∞ / ∞, the square root and the reciprocal
square root of a negative value, and in the fused forms, whose product and addend may each be negated, a NaN operand,
0 × ∞ whatever the addend, and an infinite product with the opposite infinity. -/
def Obligations.FloatNaNs : Prop :=
  (fp32.nan = 0x7FC00000 ∧ bf16.nan = 0x7FC0 ∧ fp16.nan = 0x7E00) ∧
  ∀ fm ∈ [fp32, bf16, fp16], ∀ (m : RMode) (sat : Bool),
    let bad (v : FVal) : Prop := fm.round m sat v = fm.nan
    let signed (neg : Bool) (v : FVal) : FVal := if neg then v.neg else v
    (∀ a b : FVal, a = .nan ∨ b = .nan → bad (a.add m b) ∧ bad (a.mul b) ∧ bad (a.div b)) ∧
    (bad FVal.nan.sqrt ∧ bad FVal.nan.rsqrt) ∧
    (∀ neg, bad ((FVal.inf neg).add m (.inf !neg))) ∧
    (∀ neg neg' d e, bad ((FVal.inf neg).mul (.fin neg' 0 d e)) ∧ bad ((FVal.fin neg' 0 d e).mul (.inf neg))) ∧
    (∀ neg neg' d e d' e', bad ((FVal.fin neg 0 d e).div (.fin neg' 0 d' e'))) ∧
    (∀ neg neg', bad ((FVal.inf neg).div (.inf neg'))) ∧
    (∀ n d e, n ≠ 0 → bad (FVal.fin true n d e).sqrt ∧ bad (FVal.fin true n d e).rsqrt) ∧
    (bad (FVal.inf true).sqrt ∧ bad (FVal.inf true).rsqrt) ∧
    ∀ (a b c : FVal) (p q : Bool),
      let fused := (signed p (a.mul b)).add m (signed q c)
      (a = .nan ∨ b = .nan ∨ c = .nan → bad fused) ∧
      (∀ neg neg' d e, a = .inf neg ∧ b = .fin neg' 0 d e ∨ a = .fin neg' 0 d e ∧ b = .inf neg → bad fused) ∧
      (∀ neg neg' n d e, n ≠ 0 → a = .inf neg → b = .fin neg' n d e → signed q c = .inf (neg == neg') ∧ p = false ∨
        signed q c = .inf (neg != neg') ∧ p = true → bad fused)

/-- VFMIN and VFMAX (R110) never round: with a NaN the canonical NaN, else the lesser or greater operand,
−0 below +0. -/
def Obligations.FloatMinMax : Prop :=
  ∀ i ∈ [(Instr.vfmin, true), (Instr.vfmax, false)], ∃ r : FloatFmt → Nat → Nat → Nat,
    LaneResult i.1 (fun f cx l => buildElems f.ty fun e =>
      r (laneFmt f.ty) (elemOf f.ty (f.opA cx l) e) (elemOf f.ty (f.opB cx l) e)) ∧
    ∀ fm ∈ [fp32, bf16, fp16], ∀ a < 2 ^ fm.width, ∀ b < 2 ^ fm.width,
      if fm.decode a = .nan ∨ fm.decode b = .nan then r fm a b = fm.nan
      else IsExtreme fm i.2 a b (r fm a b)

/-- VFABS, VFNEG and VFCPYS (R111) act on the sign bit alone; a NaN in operand a gives the canonical NaN. -/
def Obligations.FloatSigns : Prop :=
  ∀ x ∈ signResults, LaneResult x.1 fun f cx l =>
    buildElems f.ty fun e =>
      let fm := laneFmt f.ty
      let a := elemOf f.ty (f.opA cx l) e
      if fm.decode a = .nan then fm.nan else x.2 fm a (elemOf f.ty (f.opB cx l) e)

/-- VFRINT (R112) completes in every state with an issuing split and for all operands: it answers a next state
in which v[VD] of the lanes that take part is written, the split goes on at the next word, and nothing else has
changed; each element is rounded to an integer under RM: to the nearest, a tie to the even one (RNE), toward zero (RZ),
up (RU), down (RD), or by the random field (RS); one that rounds to 0 keeps its sign; an infinity or a zero stays as
it is and a NaN becomes the canonical NaN (R33, R34). -/
def Obligations.FloatToIntegral : Prop :=
  CompletesInLanes Instr.vfrint 0 ∧
  ∃ r : FloatFmt → RMode → Nat → Nat,
    (∀ (s : State) (cx : Ctx) (f : FmtV), s.ctx? = some cx → ∃ t, exec (.vfrint f) s = .next t ∧
      ∀ l, l < 96 → (cx.active f.km).getLsbD l = true → t.vAt cx f.vd.toNat l =
        some (buildElems f.ty fun e =>
          r (laneFmt f.ty) (rmode f.rm.toNat ((f.opC cx l).toNat / 2 ^ ((laneFmt f.ty).width * e))
            (laneFmt f.ty).width) (elemOf f.ty (f.opA cx l) e))) ∧
    ∀ fm ∈ [fp32, bf16, fp16], ∀ a < 2 ^ fm.width, ∀ rm rnd : Nat,
      let m := rmode rm rnd fm.width
      match fm.decode a with
      | .nan => r fm m a = fm.nan
      | .inf _ => r fm m a = a
      | .fin _ 0 _ _ => r fm m a = a
      | .fin neg n d e =>
        let x : ℝ := n / d * 2 ^ e
        ∃ k : Nat, floatValue (fm.decode (r fm m a)) = some (((if neg then -1 else 1) * (k : ℝ) : ℝ) : EReal) ∧
          |(k : ℝ) - x| < 1 ∧ (k = 0 → (r fm m a).testBit (fm.e + fm.m) = neg) ∧
          match rm with
          | 0 => |(k : ℝ) - x| ≤ 1 / 2 ∧ (|(k : ℝ) - x| = 1 / 2 → k % 2 = 0)
          | 1 => (k : ℝ) ≤ x
          | 2 => if neg = true then (k : ℝ) ≤ x else x ≤ k
          | 3 => if neg = true then x ≤ k else (k : ℝ) ≤ x
          | _ => k = ⌊x⌋₊ + if 2 ^ fm.width ≤ ⌊(x - ⌊x⌋₊) * 2 ^ fm.width⌋₊ + rnd % 2 ^ fm.width then 1 else 0

/-- The six VXF functions VEXP2, VLOG2, VSIN, VCOS, VTANH and VSIGM (R113): in every state with an issuing split
and for all operands each completes, writes v[VD] in the lanes that take part alone, and goes on at the next word;
only the model's free-value counter moves besides (log entry 7). -/
def Obligations.FloatFunctions : Prop :=
  CompletesInLanes Instr.vexp2 1 ∧ CompletesInLanes Instr.vlog2 1 ∧ CompletesInLanes Instr.vsin 1 ∧
  CompletesInLanes Instr.vcos 1 ∧ CompletesInLanes Instr.vtanh 1 ∧ CompletesInLanes Instr.vsigm 1

/-- Exact and special results of the VXF functions for F32 codes (R114): zeros, infinities, ±1 and 0.5 of VEXP2,
VLOG2, VSIN, VCOS, VTANH and VSIGM give the code of the table, and NaN where it says so. -/
def Obligations.FloatFunctionSpecials : Prop :=
  let one := 0x3F800000
  let out (g : FVal → FRes) (code : Nat) : Option Nat := fp32.ofRes false (g (fp32.decode code))
  let inf := 0x7F800000
  let minus := 0x80000000
  (out fexp2 (inf + minus) = some 0 ∧ out fexp2 inf = some inf ∧ out fexp2 one = some 0x40000000) ∧
  (out flog2 0 = some (inf + minus) ∧ out flog2 minus = some (inf + minus) ∧ out flog2 inf = some inf ∧
    out flog2 (one + minus) = some fp32.nan ∧ out flog2 one = some 0) ∧
  (out fsin 0 = some 0 ∧ out fsin minus = some minus ∧ out fsin 0x3F000000 = some one ∧
    out fsin one = some 0 ∧ out fsin inf = some fp32.nan) ∧
  (out fcos 0 = some one ∧ out fcos one = some (one + minus) ∧ out fcos 0x3F000000 = some 0 ∧
    out fcos inf = some fp32.nan) ∧
  (out ftanh 0 = some 0 ∧ out ftanh minus = some minus ∧ out ftanh inf = some one ∧
    out ftanh (inf + minus) = some (one + minus)) ∧
  (out fsigm 0 = some 0x3F000000 ∧ out fsigm inf = some one ∧ out fsigm (inf + minus) = some 0)

/-- Conversions (R115, R116): VCVT converts each element, VPACK puts a into element 0 and b into element 1,
VUNPK converts element EL of a; each rounds once under RM and SAT. -/
def Obligations.Conversions : Prop :=
  LaneResult Instr.vcvt (fun f cx l =>
    buildElems (BitVec.ofNat 4 (f.imm8.toNat % 16)) fun e => convertElem f (f.opC cx l) (f.opA cx l) e e) ∧
  (∀ (s : State) (cx : Ctx) (f : FmtV), s.ctx? = some cx → f.ty = 0 ∨ f.ty = 2 →
    WritesLanes s cx (exec (.vpack f) s) (cx.sp.nextPc f.lx) f.vd.toNat (cx.active f.km) fun l =>
      buildElems (BitVec.ofNat 4 (f.imm8.toNat % 16)) fun e =>
        let w := if e = 0 then f.opA cx l else f.opB cx l
        if f.ty = 0 ∧ f.sat = 0 then w.toNat else convertElem f (f.opC cx l) w 0 e) ∧
  (∀ (s : State) (cx : Ctx) (f : FmtV), s.ctx? = some cx → f.rm = 0 → f.sat = 0 →
    WritesLanes s cx (exec (.vunpk f) s) (cx.sp.nextPc f.lx) f.vd.toNat (cx.active f.km) fun l =>
      BitVec.ofNat 32 (convertElem f 0 (f.opA cx l) (f.imm8.toNat / 16 % 2) 0))

/-- Quad exchanges (R117, R118): every lane that takes part, helpers included, receives v[VA] of its source
lane whatever that lane's state. -/
def Obligations.QuadExchanges : Prop :=
  ∀ x ∈ quadExchanges, LaneResult x.1 fun f cx l => cx.v f.va.toNat (x.2 f l)

/-- Shuffles (R118): a participant receives v[VA] of the lane it fetches from when that is a participant,
else its own; helpers and lanes that do not take part are kept. -/
def Obligations.Shuffles : Prop :=
  ∀ x ∈ shuffles, CrossResult x.1 fun f cx l =>
    let src := x.2 f cx l
    if 0 ≤ src ∧ src ≤ 95 ∧ (cx.participants f.km).getLsbD src.toNat then cx.v f.va.toNat src.toNat
    else cx.v f.va.toNat l

/-- VREDU and VSCAN (R117, R119, R120): they complete and write the participants alone; for every operation and every
type that it accepts, each element is that of one chain over the participants in increasing lane order: VREDU writes
the whole chain to all, VSCAN the chain up to the lane, or below it with EXC and then the identity in the first. -/
def Obligations.Chains : Prop :=
  ∀ (s : State) (cx : Ctx) (f : FmtV), s.ctx? = some cx →
    (∃ v : Word, WritesLanes s cx (exec (.vredu f) s) (cx.sp.nextPc f.lx) f.vd.toNat
        (cx.participants f.km) (fun _ => v) ∧
      (chainAccepts f → partsOf f cx ≠ [] → v = buildElems f.ty fun e => chainOver f cx e (partsOf f cx))) ∧
    (∃ v : Nat → Word, WritesLanes s cx (exec (.vscan f) s) (cx.sp.nextPc f.lx) f.vd.toNat
        (cx.participants f.km) v ∧
      (chainAccepts f → ∀ l ∈ partsOf f cx, v l = buildElems f.ty fun e => chainOver f cx e
        ((partsOf f cx).filter fun p => if f.imm8.getLsbD 4 then decide (p < l) else decide (p ≤ l))))

/-- VBALLOT (R121): bit P of the ballot is 1 exactly when P is a participant and v[VA][P] is not 0; every
participant receives bits 32w to 32w + 31. -/
def Obligations.Ballot : Prop :=
  CrossResult Instr.vballot fun f cx _ =>
    BitVec.ofFnLE fun j : Fin 32 =>
      let p := 32 * f.imm8.toNat + j.val
      (cx.participants f.km).getLsbD p && decide (cx.v f.va.toNat p ≠ 0)

/-- VCOMP (R122): participant number i receives v[VA] of the i-th participant whose bit in k[S] is set, or
0 beyond them. -/
def Obligations.Compaction : Prop :=
  CrossResult Instr.vcomp fun f cx l =>
    let qs := (partsOf f cx).filter fun p => (cx.k f.imm8.toNat).getLsbD p
    match qs[((partsOf f cx).filter (· < l)).length]? with
    | some q => cx.v f.va.toNat q
    | none => 0

/-- NOP and ICINV (R129, R132) go on at the next word. NOP changes nothing; ICINV discards the core's fetched
copies of the 64-byte blocks that overlap its range, and a length of 0 discards none. YIELD (R131) marks the
time at which it gave way when the group has another ready split, and changes no register or counter. That only a
resident split is another ready one here is the model's choice (log entry 70), since R131 does not say it. -/
def Obligations.NopYieldIcinv : Prop :=
  ∀ (s : State) (cx : Ctx) (f : FmtE), s.ctx? = some cx →
    Completes s cx (exec (.nop f) s) (cx.sp.nextPc f.lx) {} (fun _ => True) ∧
    Completes s cx (exec (.yield f) s) (cx.sp.nextPc f.lx)
      { split := fun p =>
          if ∃ q ∈ cx.grp.splits, q.handler = cx.grp.trap.active ∧ q.id ≠ cx.sp.id ∧ q.wait = 0 ∧ q.place < 64
          then { p with yielded := some s.now } else p } (fun _ => True) ∧
    let a := (cx.spair f.sa.toNat).toNat
    let n := (cx.s f.sb.toNat).toNat
    Completes s cx (exec (.icinv f) s) (cx.sp.nextPc f.lx)
      { core := fun c x => if c = cx.core ∧ n ≠ 0 then
          { x with code := x.code.filter fun k =>
              !decide (k.asid = cx.blk.asid ∧ a < 64 * k.block + 64 ∧ 64 * k.block < min (a + n) (2 ^ 56)) }
          else x
        group := fun g =>
          let r := (a / 64, (min (a + n) (2 ^ 56) - 1) / 64)
          if n = 0 ∨ r ∈ g.icinv then g else { g with icinv := r :: g.icinv } } fun _ => True

/-- SREAD (R89, R133) writes the value of the special register of index IMM16 to s[SD], 0 for an index above
35; reading CYCLE_LO latches the high half of the count. SWRITE (R133) writes CVM, STAT or CVTMO and ignores
any other index. -/
def Obligations.SpecialRegisters : Prop :=
  ∀ (s : State) (cx : Ctx) (f : FmtE), s.ctx? = some cx →
    (∀ x ∈ specials s cx ++ (if 36 ≤ f.imm16.toNat then [(f.imm16.toNat, 0)] else []), f.imm16.toNat = x.1 →
      Completes s cx (exec (.sread f) s) (cx.sp.nextPc f.lx)
        { ss := [f.sd.toNat]
          split := fun p => if x.1 = 14 then { p with cycHi := BitVec.ofNat 32 (s.cycle cx.core / 2 ^ 32) }
            else p } fun t => t.sAt cx f.sd.toNat = some (landed cx f.sd.toNat x.2)) ∧
    Completes s cx (exec (.swrite f) s) (cx.sp.nextPc f.lx)
      { group := specialWrite f.imm16.toNat (cx.s f.sa.toNat) } fun _ => True

/-- TRAP and BKPT (R130, R224) trap with IMM16 in TRAPINFO and resume after themselves; a TRET outside a
handler traps PRIV (R130), and a word that is no instruction traps ILLEGAL with its reason (R54), each to be
issued again. The trap is taken as R164, R166 and R222 say. A BKPT of a claimed group goes to its debugger
(R389): DBGSTAT gets the cause and the split, and the split goes on. -/
def Obligations.SoftwareTraps : Prop :=
  ∀ (s : State) (cx : Ctx) (f : FmtE), s.ctx? = some cx → cx.sp.handler = false →
    Traps s cx (exec (.trap f) s) 0x0E (f.imm16.setWidth 32) (cx.sp.nextPc f.lx) ∧
    (cx.grp.claimed = false →
      Traps s cx (exec (.bkpt f) s) 0x0D (f.imm16.setWidth 32) (cx.sp.nextPc f.lx)) ∧
    Traps s cx (exec (.tret f) s) 0x02 0 cx.sp.pc ∧
    (∀ r, 1 ≤ r → r ≤ 9 → Traps s cx (exec (.illegalWord r) s) 0x01 (BitVec.ofNat 32 r) cx.sp.pc) ∧
    (cx.grp.claimed = true → ∃ t, exec (.bkpt f) s = .next t ∧ t.mark = .done ∧
      t.pcAt cx = some (cx.sp.nextPc f.lx) ∧
      (t.core cx.core).dbgstat = BitVec.ofNat 32 (0x0D + 256 * cx.sp.id) ∧
      (t.grpAt cx).map Group.rest = some cx.grp.rest ∧ (∀ n, n < 64 → t.sAt cx n = s.sAt cx n) ∧
      (∀ c a, t.spadByte c a = s.spadByte c a) ∧ ∀ d a, t.dramByte d a = s.dramByte d a)

/-- TRET (R130, R166, R167, R224) ends every handler split, returns the frozen splits and the rejoin registers,
sets TRAPCAUSE to 0 and frees the trap pair; the faulting split resumes at its resume address. Held matrix
entries of the group become pending again (R270). Stated where no trap waits for the pair. -/
def Obligations.TrapReturn : Prop :=
  ∀ (s : State) (cx : Ctx) (f : FmtE), s.ctx? = some cx → cx.sp.handler = true →
    (∀ kg ∈ (s.core cx.core).groups, kg.2.trap.pending = none) →
    let held (e : MEntry) : Bool :=
      decide (e.core = cx.core ∧ e.gslot = cx.slot ∧ e.uid = cx.grp.uid ∧ e.state = 2)
    let es := (s.cluster (cx.core / 4)).entries
    ∃ t g, exec (.tret f) s = .next t ∧ t.mark = .done ∧ t.grpAt cx = some g ∧
      (t.core cx.core).trapOwner = none ∧
      Resettled s.now (Group.orphan { cx.grp with
        j := cx.grp.trap.jshadow
        splits := (cx.grp.splits.filter fun p => !p.handler).map fun p =>
          let q := if p.wait = 4 then { p with wait := p.pwait, pwait := 0 }
            else if p.wait = 5 ∧ p.dwait = 4 then { p with dwait := p.pwait, pwait := 0 } else p
          { q with readyAt := s.now + 1
                   pc := if p.id = cx.grp.trap.split then cx.grp.trap.resume.getD p.pc else p.pc }
        trap := { cx.grp.trap with active := false, cause := 0, resume := none, jshadow := [] }
        cmds := { cx.grp.cmds with
          t := cx.grp.cmds.t + es.countP fun e => held e && decide (e.kind = 2) } }) g ∧
      (t.cluster (cx.core / 4)).entries =
        (es.map fun e => if held e then { e with state := 0, step := 0 } else e) ∧
      (∀ c n, c ≠ cx.core ∨ n ≠ cx.slot →
        (t.group? c n).map unplacedGroup = (s.group? c n).map unplacedGroup) ∧
      (∀ c a, t.spadByte c a = s.spadByte c a) ∧ ∀ d a, t.dramByte d a = s.dramByte d a

/-- A trap of a group without a trap entry is fatal (R222, R225): the group ends and its launch is marked
faulted with the cause, TRAPPC, TRAPINFO and the group's place. -/
def Obligations.FatalTraps : Prop :=
  ∀ (s : State) (cx : Ctx) (f : FmtE), s.ctx? = some cx → cx.sp.handler = false → cx.grp.releasing = false →
    (cx.blk.trapEntry.bind fun i => s.handler? cx.blk.launch i) = none →
    ∃ t, exec (.trap f) s = .next t ∧ t.mark = .trapped ∧ GroupGone t cx.core cx.slot cx.grp.uid ∧
      (∀ l, s.launch? cx.blk.launch = some l → l.fault = none →
        (t.launch? cx.blk.launch).map (·.fault) = some (some
          { cause := 0x0E, pc := cx.sp.pc, info := f.imm16.setWidth 32, gid := cx.grp.gid,
            blockId := cx.blk.blockId, gang := cx.blk.gang, core := cx.core, cyc := s.cycle cx.core
            at_ := s.now })) ∧
      (∀ c a, t.spadByte c a = s.spadByte c a) ∧ ∀ d a, t.dramByte d a = s.dramByte d a

/-- BRA, BSC and BSZ (R134): the branch is taken by its condition, and nothing but the PC changes. CALL (R134)
also writes the address of the next word to s[SA], s[SA+1]; RJPEEK (R134, R157) reads 32 bits of ARRIVED; RET
and JMPI (R137) go to the address of the pair, or trap ALIGN with TRAPINFO 127. -/
def Obligations.Branches : Prop :=
  ∀ (s : State) (cx : Ctx) (f : FmtB), s.ctx? = some cx →
    let pick (c : Prop) [Decidable c] : DWord := if c then branchTarget f cx else nextWord cx
    let pair := (cx.s (f.sa.toNat + 1)).toNat * 2 ^ 32 + (cx.s f.sa.toNat).toNat
    Completes s cx (exec (.bra f) s) (branchTarget f cx) {} (fun _ => True) ∧
    Completes s cx (exec (.bsc f) s) (pick (cx.s f.sa.toNat ≠ 0 ↔ f.neg = 0)) {} (fun _ => True) ∧
    Completes s cx (exec (.bsz f) s)
      (pick (cx.sp.exec &&& cx.k f.kc.toNat = 0 ↔ f.neg = 0)) {}
      (fun _ => True) ∧
    (f.sa.toNat % 2 = 0 →
      Completes s cx (exec (.call f) s) (branchTarget f cx) { ss := [f.sa.toNat, f.sa.toNat + 1] } fun t =>
        t.sAt cx f.sa.toNat = some (landed cx f.sa.toNat (BitVec.ofNat 32 (nextWord cx).toNat)) ∧
        t.sAt cx (f.sa.toNat + 1) =
          some (landed cx (f.sa.toNat + 1) (BitVec.ofNat 32 ((nextWord cx).toNat / 2 ^ 32)))) ∧
    WritesScalar s cx (exec (.rjpeek f) s) (nextWord cx) f.sa.toNat
      (BitVec.ofNat 32 ((tget {} cx.grp.j f.jr.toNat).arrived.toNat / 2 ^ (32 * f.imm10.toNat))) ∧
    ∀ i ∈ [Instr.ret f, Instr.jmpi f],
      if pair % 8 = 0 ∧ pair < 2 ^ 56 then
        Completes s cx (exec i s) (BitVec.ofNat 64 pair) {} fun _ => True
      else cx.sp.handler = false → Traps s cx (exec i s) 0x03 127 cx.sp.pc

/-- REJOIN_RELEASE (R155, R156, R160): 2 cycles after it began, the waiters become one split with the saved fmt, the
register goes idle, the splits that waited for that are ready to issue their RJSET or RJOIN again, a partial release
sets STAT.JLOST, and the registers are evaluated again. Without a release in its third cycle nothing happens, which
is the model's choice (log entry 1). -/
def Obligations.RejoinRelease : Prop :=
  ∀ (s : State) (c n j : Nat) (y : Group), s.group? c n = some y → y.trap.pending = none →
    let r := tget {} y.j j
    let w := y.running.filter fun p => decide (p.eff = 1 ∧ p.wj = j)
    if r.state = 2 ∧ r.start + 2 ≤ s.now then
      Settles s c n (exec (.rejoinRelease c n j) s) fun g => ∃ a b,
        (if w = [] then a = y else MergesTo y w (fun _ => r.sfmt) 0 a) ∧
        unplacedGroup b = unplacedGroup (woken a j s.now) ∧
        Resettled s.now { (if r.partialRel then flagged b 1 else b) with
          j := tset {} y.j j { r with state := 0, start := 0, partialRel := false } } g
    else Held s (exec (.rejoinRelease c n j) s)

/-- BAR (R138, R163): the split waits at the barrier with its PC after it, and splits that all wait there
merge. EXIT (R139): the lanes of the split's domain end, and the other splits continue; the last EXIT, or one
of a handler (R165), ends the group. -/
def Obligations.BarAndExit : Prop :=
  ∀ (s : State) (cx : Ctx) (f : FmtB), s.ctx? = some cx →
    (cx.sp.handler = false → Settles s cx.core cx.slot (exec (.bar f) s)
      (Settled s.now (withIssuing cx fun p =>
        { p with wait := 2, pc := nextWord cx, await := .none, waitI := none }))) ∧
    (cx.sp.handler = false → 1 < cx.grp.running.length → Settles s cx.core cx.slot (exec (.exit f) s)
      (Settled s.now (Group.clearResv { cx.grp with
        splits := cx.grp.splits.filter fun p => !cx.grp.issues cx.sp.id p } cx.sp.domain).orphan)) ∧
    (cx.sp.handler = true ∨ cx.grp.running.length ≤ 1 →
      ∃ t, exec (.exit f) s = .next t ∧ t.mark = .done ∧ GroupGone t cx.core cx.slot cx.grp.uid ∧
        (∀ c a, t.spadByte c a = s.spadByte c a) ∧ ∀ d a, t.dramByte d a = s.dramByte d a)

/-- BDIV and BDIVX (R135, R136, R144): a split whose active lanes all go one way branches whole, else it
divides by path; the new splits take free entries of the table and then of the block's paddock, and without room
for all of them it traps SPLITOVF. -/
def Obligations.Divisions : Prop := bdivDivides ∧ bdivxDivides

/-- RJSET and RJOIN (R155, R156, R159): arming, waiting and arriving at a rejoin register. -/
def Obligations.RejoinRegisters : Prop := rjsetArms ∧ rjoinArrives

/-- A soft error (R219, R221): when the block's interval can be rolled back, SOFT_ERROR_ROLLBACK completes, and the block
has been rolled back; else, or with an error in the undo journal, the block fails with cause 0x40. A trap or BAR of a
handler's split is a DOUBLE (R166, R226): the first in an interval that can be rolled back rolls back, any other
fails the block with cause 0x10. Stated for a block with no commands at the engine, for which a rollback need not
wait. That the mark of a DOUBLE survives the rollback it causes, that writes in flight are called off, and that S and
R no longer count what is discarded, where R220 leaves the counters of WAITC as they stand, are the model's choices
(log entries 18, 69 and 78). -/
def Obligations.Rollback : Prop :=
  (∀ (s : State) (c b : Nat) (k : Block), s.block? c b = some k → k.ended = false → k.rolling = none →
    (∀ m ∈ (s.core c).cmds, m.block ≠ b) → k.exposed = false → k.jfull = false → Recorded (s.core c) b k →
    ∃ t, exec (.softErrorRollback c b) s = .next t ∧ RolledBack s t c b k false) ∧
  (∀ (s : State) (c b : Nat) (k : Block), s.block? c b = some k → k.ended = false → k.rolling = none →
    k.exposed = true ∨ k.jfull = true ∨ k.jbad = true →
    ∃ t, exec (.softErrorRollback c b) s = .next t ∧ BlockFailed s t c b k 0x40) ∧
  ∀ (s : State) (cx : Ctx) (i : Instr), s.ctx? = some cx → cx.sp.handler = true →
    (∃ f, i = .trap f) ∨ (∃ f, i = .bar f) → (∀ m ∈ (s.core cx.core).cmds, m.block ≠ cx.grp.block) →
    ∃ t, exec i s = .next t ∧ t.mark = .trapped ∧
      if cx.blk.exposed = false ∧ cx.blk.jfull = false ∧ cx.blk.dbl = false then
        Recorded (s.core cx.core) cx.grp.block cx.blk → RolledBack s t cx.core cx.grp.block cx.blk true
      else BlockFailed s t cx.core cx.grp.block cx.blk 0x10

/-- LDS, LDU and LDRES (R172 to R174, R176 to R178, R187): each address is checked in order, and the lowest failing
launched lane traps; else the load is entered among those of its group, with the stores issued before it, and the
split goes on; it writes no register but its destination, in the lanes that take part. Six cycles after its issue it
performs: the destination registers get the loaded bytes, low register first and zero-extended, each byte from the
latest store of the group issued before the load that is still queued, or else as memory holds it then; each
participant of an LDRES reserves its granule, and nothing else changes. That it performs exactly then, and that a
helper lane whose check fails reads zeros at its issue, are the readings of log entry 8. -/
def Obligations.Loads : Prop :=
  (∀ (s : State) (cx : Ctx) (f : FmtM), s.ctx? = some cx → f.sz.toNat ≤ 4 →
    let p := locOf f.scope (cx.s f.sbase.toNat) cx s
    let n := 2 ^ f.sz.toNat
    let m := cx.active f.km
    let adr l := p.base + (f.offset cx l).toNat
    let bad l := accessCause s p true false (f.offset cx l).toNat n
    let entered (uniform : Bool) (dst : Nat) (from_ : List (Nat × Nat)) (resv : Tbl Nat) (g : Group) : Group :=
      { g with q := { g.q with
          loads := g.q.loads ++ [{ at_ := s.now, stores := cx.grp.q.stIn, split := cx.sp.id, handler := cx.sp.handler
                                   uniform, dst, size := n, home := p.home, lanes := from_, resv }]
          ldIn := g.q.ldIn + 1 } }
    let lanesGet (o : Out) (resv : Tbl Nat) : Prop :=
      Checked s cx o p (lowestBad cx (lanes m) bad) <|
        Completes s cx o (cx.sp.nextPc f.lx)
          { vs := (List.range (accessWords f)).map (f.vds.toNat + ·)
            group := entered false f.vds.toNat
              (((lanes m).filter fun l => (bad l).isNone).map fun l => (l, adr l)) resv } fun t =>
            ∀ w, w < accessWords f → ∀ l, l < 96 →
              (m.getLsbD l = false → t.vAt cx (f.vds.toNat + w) l = s.vAt cx (f.vds.toNat + w) l) ∧
              (m.getLsbD l = true → bad l ≠ none → t.vAt cx (f.vds.toNat + w) l = some 0)
    lanesGet (exec (.lds f) s) [] ∧
    lanesGet (exec (.ldres f) s) ((lanes (m &&& ~~~cx.helpers)).map fun l =>
      (l, (cx.blk.base + (f.offset cx l).toNat) / 8 * 8)) ∧
    (f.vds.toNat % 64 + accessWords f ≤ 64 → Checked s cx (exec (.ldu f) s) p
        ((accessCause s p true false (f.offsetU cx).toNat n).map fun c => (127, c))
        (Completes s cx (exec (.ldu f) s) (cx.sp.nextPc f.lx)
          { ss := (List.range (accessWords f)).map (f.vds.toNat % 64 + ·)
            group := entered true (f.vds.toNat % 64) [(0, p.base + (f.offsetU cx).toNat)] [] } fun _ => True))) ∧
  ∀ (s : State) (c n : Nat) (y : Group) (o : LoadOp) (rest : List LoadOp), s.group? c n = some y →
    y.q.loads = o :: rest → o.at_ + 6 ≤ s.now → o.size ≤ 16 →
    let words := (o.size + 3) / 4
    let seen a i := byteBefore s (y.q.stores.take (o.stores - y.q.stOut)) o.home (a + i)
    ∃ t z, s.act (.load c n) = .next t ∧ t.group? c n = some z ∧
      z.rest = { y.rest with q := { y.q with loads := rest, ldOut := y.q.ldOut + 1 }
                             resv := o.resv.foldl (fun r x => tput r x.1 x.2) y.resv } ∧
      z.regs.k = y.regs.k ∧
      (∀ k g, k ≠ c ∨ g ≠ n → t.group? k g = s.group? k g) ∧ (∀ k b, t.block? k b = s.block? k b) ∧
      (∀ k, (t.core k).rest = (s.core k).rest) ∧ t.rest = s.rest ∧
      (o.uniform = false → z.splits = y.splits ∧ z.regs.s = y.regs.s ∧
        ((∀ x ∈ o.lanes, x.1 < 96) → (o.lanes.map (·.1)).Nodup → ∀ r l, l < 96 →
          tget 0 z.regs.v (96 * r + l) = match o.lanes.find? fun x => x.1 == l with
            | some x => if o.dst ≤ r ∧ r < o.dst + words then wordOf o.size (r - o.dst) (seen x.2)
              else tget 0 y.regs.v (96 * r + l)
            | none => tget 0 y.regs.v (96 * r + l))) ∧
      (∀ a, o.uniform = true → o.lanes = [(0, a)] → o.dst + words ≤ 64 → z.regs.v = y.regs.v ∧
        ∀ p ∈ y.splits, p.id = o.split → p.handler = o.handler → ∃ q ∈ z.splits, q.id = p.id ∧ q.handler = p.handler ∧
          ∀ r, r < 64 → readS z.regs q r = if o.dst ≤ r ∧ r < o.dst + words then
            landedIn p.domain r (wordOf o.size (r - o.dst) (seen a)) else readS y.regs p r)

/-- STS and STU (R172, R173, R176, R177, R186): with a full store queue the instruction is held; else the
addresses are checked, and one entry with the participants' bytes, in increasing lane order, is queued. No byte
of memory changes until STORE_PERFORM, which waits for the loads of the group issued before the store (R187): then the
oldest entry's bytes are written and no others. -/
def Obligations.Stores : Prop :=
  (∀ (s : State) (cx : Ctx) (f : FmtM), s.ctx? = some cx → f.sz.toNat ≤ 4 →
    let p := locOf f.scope (cx.s f.sbase.toNat) cx s
    let n := 2 ^ f.sz.toNat
    let ls := lanes (cx.active f.km &&& ~~~cx.helpers)
    let queues (o : Out) (cells : List (Nat × Byte)) : Prop :=
      Completes s cx o (cx.sp.nextPc f.lx)
        { group := fun g => { g with q := { g.q with
            stores := g.q.stores ++ [{ home := p.home, handle := p.handle, cells }]
            stIn := g.q.stIn + 1 } } } fun _ => True
    if 16 ≤ cx.grp.q.stores.length then Held s (exec (.sts f) s) ∧ Held s (exec (.stu f) s)
    else
      (Checked s cx (exec (.sts f) s) p
        (lowestBad cx ls fun l => accessCause s p false true (f.offset cx l).toNat n) <|
        queues (exec (.sts f) s) (ls.flatMap fun l =>
          cellsFrom (p.base + (f.offset cx l).toNat) n (regByte (cx.v · l) f.vds.toNat))) ∧
      (Checked s cx (exec (.stu f) s) p
        ((accessCause s p false true (f.offsetU cx).toNat n).map fun c => (127, c)) <|
        queues (exec (.stu f) s)
          (cellsFrom (p.base + (f.offsetU cx).toNat) n (regByte cx.s (f.vds.toNat % 64))))) ∧
  ∀ (s : State) (c g : Nat) (y : Group) (o : StoreOp) (rest : List StoreOp), s.group? c g = some y →
    y.q.stores = o :: rest → (∀ l ∈ y.q.loads, y.q.stOut < l.stores) → ∃ t, exec (.storePerform c g) s = .next t ∧
      (∀ k a, t.spadByte k a = if k = o.home then lastCell o.cells a (s.spadByte k a) else s.spadByte k a) ∧
      (∀ l, tget false (t.core o.home).poison l =
        if covers o.cells l then false else tget false (s.core o.home).poison l) ∧
      (∀ d a, t.dramByte d a = s.dramByte d a) ∧ (∀ a, t.hostByte a = s.hostByte a) ∧
      ((∀ kg ∈ (s.core c).groups, kg.2.ended = false) → t.group? c g = some
        ((if o.home = c then unreserve o.cells else id)
          { y with q := { y.q with stores := rest, stOut := y.q.stOut + 1 } }))

/-- The scratchpad atomics, STCND and STCMP (R178, R180 to R183): each is held until the group's stores and loads have
performed, is checked, and then acts in one step, lane after lane in increasing order. An atomic writes each
lane's new value and returns the old ones; STCND stores where the reservation holds and writes 0 there and 1
elsewhere; STCMP appends the participants' words at the pointer and adds their number to it. That an atomic
acts in the step of its issue is the reading of log entry 8. -/
def Obligations.Atomics : Prop :=
  ∀ (s : State) (cx : Ctx) (f : FmtM), s.ctx? = some cx →
    let p := locOf f.scope (cx.s f.sbase.toNat) cx s
    let n := 2 ^ f.sz.toNat
    let m := cx.active f.km
    let parts := lanes (m &&& ~~~cx.helpers)
    let adr l := p.base + (f.offset cx l).toNat
    let next := cx.sp.nextPc f.lx
    if cx.grp.q.stores ≠ [] ∨ cx.grp.q.loads ≠ [] then
      ∀ i ∈ (atomics.map fun x => x.1 f) ++ [.stcnd f, .stcmp f], Held s (exec i s)
    else
      (∀ x ∈ atomics, f.sz = 2 ∨ (f.sz = 3 ∧ x.1 f ≠ Instr.afadd f) →
        Checked s cx (exec (x.1 f) s) p
          (lowestBad cx parts fun l => accessCause s p true true (f.offset cx l).toNat n)
          (let second := f.vds.toNat + accessWords f
          let number r l := numberAt (fun i => regByte (cx.v · l) r i) 0 n
          let run := atomicRun n adr (fun l old => x.2 n old (number f.vds.toNat l) (number second l)) parts
            (s.spadByte p.home)
          Completes s cx (exec (x.1 f) s) next
            (Effect.storing p.home run.1 cx id ((List.range (accessWords f)).map (f.vds.toNat + ·))) fun t =>
              (∀ a, t.spadByte p.home a = lastCell run.1 a (s.spadByte p.home a)) ∧
              ∀ w, w < accessWords f → ∀ l, l < 96 → t.vAt cx (f.vds.toNat + w) l =
                if (m &&& ~~~cx.helpers).getLsbD l then some (BitVec.ofNat 32 (run.2 l / 2 ^ (32 * w)))
                else s.vAt cx (f.vds.toNat + w) l)) ∧
      (f.scope = 0 → f.sz = 2 ∨ f.sz = 3 → (cx.grp.resv.map (·.1)).Nodup → Checked s cx (exec (.stcnd f) s) p
        (lowestBad cx (lanes m) fun l => accessCause s p false true (f.offset cx l).toNat n)
        (let won := (lanes m).filter (reservationHolds cx (lanes m) adr)
        let cells := won.flatMap fun l => cellsFrom (adr l) n (regByte (cx.v · l) f.vds.toNat)
        Completes s cx (exec (.stcnd f) s) next
          (Effect.storing cx.core cells cx (fun g => { g with
            resv := cx.grp.resv.filter fun r => !m.getLsbD r.1 &&
              won.all fun l => decide (adr l / 8 * 8 ≠ r.2) }) [f.vds.toNat]) fun t =>
            (∀ a, t.spadByte cx.core a = lastCell cells a (s.spadByte cx.core a)) ∧
            ∀ l, l < 96 → t.vAt cx f.vds.toNat l =
              if m.getLsbD l then some (if won.contains l then 0 else 1) else s.vAt cx f.vds.toNat l)) ∧
      (f.scope = 0 → f.sbase.toNat % 2 = 0 →
        let pa := (f.offsetU cx).toNat
        let ptr := numberAt (s.spadByte cx.core) (p.base + pa) 4
        let word l := (4 * (ptr + parts.idxOf l)) % 2 ^ 32
        Checked s cx (exec (.stcmp f) s) p
          (((accessCause s p true true pa 4).map fun c => (127, c)).or
            (lowestBad cx parts fun l => accessCause s p false true (word l) 4))
          (let cells := (parts.flatMap fun l =>
            cellsFrom (p.base + word l) 4 (regByte (cx.v · l) f.vds.toNat)) ++
              cellsFrom (p.base + pa) 4 fun i => BitVec.ofNat 8 ((ptr + parts.length) / 256 ^ i)
          Completes s cx (exec (.stcmp f) s) next
            (Effect.storing cx.core cells cx (fun g => if 2 ^ 32 ≤ ptr + parts.length then
              flagged g 4 else g) [] [f.sbase.toNat + 1]) fun t =>
              (∀ a, t.spadByte cx.core a = lastCell cells a (s.spadByte cx.core a)) ∧
              t.sAt cx (f.sbase.toNat + 1) =
                some (landed cx (f.sbase.toNat + 1) (BitVec.ofNat 32 parts.length))))

/-- FENCE (R184, R187, R367) ends once the stores and loads that its group had issued have performed and, after an ICINV, the
fetches then in flight have returned; what the core holds of the group's ICINV ranges, and what fetches bring of
them, is discarded; from CLUSTER scope up, it bounds the commands accepted before it. SEAL and UNSEAL (R185, R302, R303, R305): a scratchpad SEAL makes an entry
once nothing can still write the range, with its checks before; a scratchpad UNSEAL removes the oldest equal
entry; the global forms ask the owner die and act on its answer. What a FENCE discards after an ICINV is the
reading of log entry 44. -/
def Obligations.Fences : Prop :=
  ∀ (s : State) (cx : Ctx) (f : FmtM), s.ctx? = some cx →
    let next := cx.sp.nextPc f.lx
    let len := (cx.s (f.vds.toNat % 64)).toNat
    let off := (cx.s f.sbase.toNat + f.imm20.signExtend 32).toNat
    let a := ((cx.s (f.sbase.toNat + 1)) ++ (cx.s f.sbase.toNat) : DWord) + f.imm20.signExtend 64
    let fence := exec (.fence f) s
    let sealOut := exec (.fseal f) s
    let unsealOut := exec (.funseal f) s
    let own := a.toNat / 2 ^ 53 % 8
    let good := a.toNat < 2 ^ 56 ∧ own ≤ 3 ∧ (a.toNat + len - 1) / 2 ^ 53 % 8 = own
    let info n : Word := BitVec.ofNat 32 (127 + n)
    let drain (o : Out) (upto : Nat) : Prop :=
      if s.spadBusy cx.core upto (cx.blk.base + off) len then Waits s cx o (.fseal f) (.seal upto off len)
      else Completes s cx o next { block := fun k => { k with seals := k.seals ++ [(off, len)] } } fun _ => True
    (cx.sp.await = .none →
      let l := if cx.grp.icinv = [] then [] else (s.core cx.core).fetches.map (·.id)
      let e : Effect :=
        { core := fun c x => if c = cx.core then closeRanges cx.blk.asid cx.grp.icinv x else x
          group := fun g => { g with
            cmds := { g.cmds with fences :=
              if 3 ≤ f.scope.toNat then tset 0 g.cmds.fences f.scope.toNat s.uidSeq else g.cmds.fences } } }
      (FenceOver s cx cx.grp.q.stIn cx.grp.q.ldIn l → Completes s cx fence next e fun _ => True) ∧
      (¬ FenceOver s cx cx.grp.q.stIn cx.grp.q.ldIn l →
        Waits s cx fence (.fence f) (.fence cx.grp.q.stIn cx.grp.q.ldIn l) e)) ∧
    (∀ n m l, cx.sp.await = .fence n m l →
      (FenceOver s cx n m l → Completes s cx fence next {} fun _ => True) ∧
      (¬ FenceOver s cx n m l → Waits s cx fence (.fence f) (.fence n m l))) ∧
    (cx.sp.await = .none → len = 0 → Completes s cx sealOut next {} (fun _ => True) ∧
      Completes s cx unsealOut next {} fun _ => True) ∧
    (cx.sp.await = .none → len ≠ 0 → f.scope = 2 →
      (if cx.blk.usable < off + len then cx.sp.handler = false → Traps s cx sealOut 0x04 127 cx.sp.pc
       else if 16 ≤ (s.core cx.core).sealsUsed then
        cx.sp.handler = false → Traps s cx sealOut 0x06 (info 256) cx.sp.pc
       else drain sealOut s.uidSeq) ∧
      Completes s cx unsealOut next { block := fun k => { k with seals := k.seals.erase (off, len) } } fun _ => True) ∧
    (cx.sp.await = .none → len ≠ 0 → f.scope ≠ 2 →
      (¬ good → cx.sp.handler = false →
        Traps s cx sealOut 0x06 (info 1024) cx.sp.pc ∧ Traps s cx unsealOut 0x06 (info 1024) cx.sp.pc) ∧
      (good → (∀ m ∈ (s.core cx.core).cmds, m.block ≠ cx.grp.block) →
        Waits s cx sealOut (.fseal f) (.asked s.uidSeq) (asks s cx a.toNat len f.scope.toNat false)) ∧
      (good → Waits s cx unsealOut (.funseal f) (.asked s.uidSeq) (asks s cx a.toNat len f.scope.toNat true))) ∧
    (∀ w, cx.sp.await = .answered w → Completes s cx unsealOut next {} (fun _ => True) ∧
      (w = 0 → Completes s cx sealOut next {} fun _ => True) ∧
      (w ≠ 0 → cx.sp.handler = false → Traps s cx sealOut 0x06 (info 256) cx.sp.pc)) ∧
    (∀ n, cx.sp.await = .asked n →
      Waits s cx sealOut (.fseal f) (.asked n) ∧ Waits s cx unsealOut (.funseal f) (.asked n)) ∧
    (∀ upto b n, cx.sp.await = .gseal upto b n → (∀ m ∈ (s.core cx.core).cmds, m.block ≠ cx.grp.block) →
      Waits s cx sealOut (.fseal f) (.asked s.uidSeq) (asks s cx b n f.scope.toNat false)) ∧
    ∀ upto o n, cx.sp.await = .seal upto o n →
      if s.spadBusy cx.core upto (cx.blk.base + o) n then Waits s cx sealOut (.fseal f) (.seal upto o n)
      else Completes s cx sealOut next { block := fun k => { k with seals := k.seals ++ [(o, n)] } } fun _ => True

/-- PUSH (R60, R191, R192): a rejected command traps; a full queue gives 1; else the command is accepted, counts
as pending and as one of the unclosed set, and s[SD] is 0. BCLOSE (R195) makes the unclosed set the next batch,
or waits with 16 batches open. Which reason is reported when several checks fail, and what the format and owner
checks take to be at fault where the rules do not say it, are the model's choices (log entries 37 and 76). -/
def Obligations.CommandsAndBatches : Prop :=
  ∀ (s : State) (cx : Ctx) (f : FmtE), s.ctx? = some cx →
    let next := cx.sp.nextPc f.lx
    let q := f.q.toNat
    let w := (List.range 16).map fun i => cx.s (f.sa.toNat + i)
    let push := exec (.push f) s
    let sd := f.sd.toNat
    let k := cx.grp.cmds
    (cx.anyLaunched = false → WritesScalar s cx push next sd 0) ∧
    (cx.anyLaunched = true → 6 < q → cx.sp.handler = false →
      Traps s cx push 0x08 (BitVec.ofNat 32 (127 + 4096 + 7 * 8192 + q * 65536 + 2 ^ 24)) cx.sp.pc) ∧
    (cx.anyLaunched = true → q = 5 → cx.blk.priv = false → cx.sp.handler = false →
      Traps s cx push 0x02 0 cx.sp.pc) ∧
    (cx.anyLaunched = true → q ≤ 6 → q ≠ 5 ∨ cx.blk.priv = true →
      match (formatCheck w q).or (extentCheck s cx w) with
      | some r => cx.sp.handler = false → Traps s cx push r.cause (r.info q) cx.sp.pc
      | none =>
        if 32 ≤ (s.core cx.core).cmds.countP fun m => decide (m.queue = q ∧ m.startedAt = none) then
          WritesScalar s cx push next sd 1
        else
          Completes s cx push next
            { ss := [sd]
              core := fun c x => if c = cx.core then { x with cmds := x.cmds ++ [acceptedCmd s cx q w] } else x
              group := fun g => { g with cmds := { g.cmds with
                p := g.cmds.p + 1
                unclosed := { g.cmds.unclosed with open_ := g.cmds.unclosed.open_ + 1
                                                   count := g.cmds.unclosed.count + 1 } } }
              machine := fun t => { t with uidSeq := t.uidSeq + 1 } } fun t =>
                t.sAt cx sd = some (landed cx sd 0)) ∧
    if k.batchNo - k.batchDone = 16 then Waits s cx (exec (.bclose f) s) (.bclose f) .none
    else
      let n := k.batchNo + 1
      Completes s cx (exec (.bclose f) s) next
        { ss := [sd]
          core := fun c x => if c = cx.core then { x with cmds := x.cmds.map fun m =>
            if m.slot = cx.slot ∧ m.uid = cx.grp.uid ∧ m.batch = none then { m with batch := some n.toNat }
            else m } else x
          group := fun g => { g with cmds := g.cmds.close n s.uidSeq } } fun t =>
            t.sAt cx sd = some (landed cx sd n) ∧ ∃ g, t.grpAt cx = some g ∧ g.cmds.batchNo = n ∧
              g.cmds.unclosed = {} ∧ tfind? g.cmds.batches n.toNat = some { k.unclosed with upto := s.uidSeq }

/-- BWAIT (R196): a batch not yet made traps BATCHERR; an incomplete one waits; with te = 1 the oldest batch
with an unreported error traps, and the split resumes after the instruction; else it goes on. BSTAT (R197)
writes the batch's status word. WAITC (R200, R201) waits until T, S, R and P are at most its immediates. RESID
(R202) marks the lanes whose element touches a line that is not resident. -/
def Obligations.BatchWaits : Prop :=
  ∀ (s : State) (cx : Ctx) (f : FmtE), s.ctx? = some cx →
    let next := cx.sp.nextPc f.lx
    let k := cx.grp.cmds
    let bwait := exec (.bwait f) s
    (∀ n, looksAt cx (cx.s f.sa.toNat) n →
      let late := k.batches.filter (unreported n)
      (k.notMade n = true → cx.sp.handler = false → Traps s cx bwait 0x0A 1 cx.sp.pc) ∧
      (k.notMade n = false → 2 ^ 31 ≤ (k.batchDone - n).toNat → Waits s cx bwait (.bwait f) (.word n)) ∧
      (k.notMade n = false → (k.batchDone - n).toNat < 2 ^ 31 →
        (f.imm16 ≠ 1 ∨ late = [] → Completes s cx bwait next {} fun _ => True) ∧
        (f.imm16 = 1 → cx.sp.handler = false → ∀ b ∈ late,
          (∀ c ∈ late, c = b ∨ (n - BitVec.ofNat 32 c.1).toNat < (n - BitVec.ofNat 32 b.1).toNat) →
            Traps s cx bwait 0x0A
              (BitVec.ofNat 32 (2 + 256 * ((b.2.status ||| 1).toNat % 256))) next))) ∧
    WritesScalar s cx (exec (.bstat f) s) next f.sd.toNat (batchWord k (cx.s f.sa.toNat)) ∧
    (let n := f.imm16.toNat
     if k.t ≤ n / 4096 ∧ k.s ≤ n / 256 % 16 ∧ k.r ≤ n / 16 % 16 ∧ k.p ≤ n % 16 then
      Completes s cx (exec (.waitc f) s) next {} fun _ => True
    else Waits s cx (exec (.waitc f) s) (.waitc f) .none) ∧
    (1 ≤ f.imm16.toNat →
      let off l := ((cx.s f.sa.toNat).toNat + l * f.imm16.toNat) % 2 ^ 32
      let inside l := off l + f.imm16.toNat ≤ cx.blk.usable
      match lowestBad cx (lanes cx.sp.exec) fun l => if inside l then none else some 0x04 with
      | some (l, _) => cx.sp.handler = false →
        Traps s cx (exec (.resid f) s) 0x04 (BitVec.ofNat 32 l) cx.sp.pc
      | none =>
        WritesMask s cx (exec (.resid f) s) next (f.sd.toNat % 8) cx.sp.domain fun l =>
          cx.sp.exec.getLsbD l && decide (inside l) && (List.range f.imm16.toNat).any fun i =>
            tget false (s.core cx.core).nonres ((cx.blk.base + off l + i) / 32))

/-- SEND, SENDV and AMSG (R192, R205, R206, R209): without a launched lane, or a word to send, nothing
happens; a bad destination or channel 63 traps CHANNEL; else one message is handed out and counts in S. RECV
and RECVV (R204, R206) post a receive that counts in R, are held while 8 are posted, and trap CHANNEL on
another block's channel; RECVT takes the message that no posted receive is to take, or writes a count of 0.
Which message RECVT takes is the reading of log entry 38. -/
def Obligations.Messages : Prop :=
  ∀ (s : State) (cx : Ctx) (f : FmtE), s.ctx? = some cx →
    let next := cx.sp.nextPc f.lx
    let ch := f.ch.toNat
    let d := cx.s f.sb.toNat
    let x := s.core cx.core
    let words := (List.range f.imm16.toNat).map fun i => cx.s (f.sa.toNat + i)
    let lane := (lanes (cx.active f.km &&& ~~~cx.helpers)).map fun l => cx.v f.sa.toNat l
    let idle (o : Out) : Prop := Completes s cx o next {} fun _ => True
    (∀ p ∈ [(exec (.send f) s, words), (exec (.sendv f) s, lane)],
      if cx.anyLaunched = false then idle p.1
      else if ch = 63 ∨ badDest d then
        cx.sp.handler = false → Traps s cx p.1 0x0B (BitVec.ofNat 32 ch) cx.sp.pc
      else if p.2 = [] then idle p.1
      else Completes s cx p.1 next (sends cx (messageOf cx 0 ch d 0 p.2)) fun _ => True) ∧
    (let o := exec (.amsg f) s
     if cx.anyLaunched = false then idle o
     else if 2 ^ 20 ≤ d.toNat ∨ badDest d then
       cx.sp.handler = false → Traps s cx o 0x0B (BitVec.ofNat 32 ch) cx.sp.pc
     else Completes s cx o next (sends cx (messageOf cx 1 ch d (cx.s (f.sb.toNat + 1)) words)) fun _ => True) ∧
    (¬ mayReceive x cx.grp.block ch → cx.sp.handler = false → ∀ i ∈ [Instr.recv f, .recvv f, .recvt f],
      Traps s cx (exec i s) 0x0B (BitVec.ofNat 32 ch) cx.sp.pc) ∧
    (mayReceive x cx.grp.block ch →
      (∀ i ∈ [(Instr.recv f, false), (.recvv f, true)],
        if 8 ≤ cx.grp.q.posted.length then Held s (exec i.1 s)
        else
          Completes s cx (exec i.1 s) next
            { core := fun c x => if c = cx.core then boundChan cx ch x else x
              group := fun g => { g with
                q := { g.q with posted := g.q.posted ++ [{ num := s.uidSeq, interval := cx.blk.interval
                                                           chan := ch, isV := i.2
                                                           dst := f.sd.toNat, sa := f.sa.toNat, split := cx.sp.id
                                                           handler := cx.sp.handler
                                                           lanes := cx.active f.km &&& ~~~cx.helpers }] }
                cmds := { g.cmds with r := g.cmds.r + 1 } }
              machine := fun t => { t with uidSeq := t.uidSeq + 1 } } fun _ => True) ∧
      let gen := if ch = 63 then 0 else (tget {} (boundChan cx ch x).chans ch).gen
      let skip := (x.groups.flatMap fun kg => if kg.2.ended ∨ ch = 63 ∧ kg.1 ≠ cx.slot then []
        else kg.2.q.posted.filter fun p => decide (p.chan = ch)).length
      let queue : List (List Word × Nat) :=
        if ch = 63 then cx.grp.q.errq.map fun m =>
          (if cx.grp.q.errDrop then m.set 0 (m.getD 0 0 ||| 0x10000) else m, destCore (m.getD 1 0))
        else (tget {} x.chans ch).msgs.map fun m => (m.payload, m.src)
      f.sd.toNat % 16 = 0 → f.sd.toNat < 48 → (f.sa.toNat < f.sd.toNat ∨ f.sd.toNat + 16 ≤ f.sa.toNat) →
      (ch ≠ 63 → (tget {} x.chans ch).state = 0 → (tget {} x.chans ch).msgs = []) →
      match queue[skip]? with
      | none => Completes s cx (exec (.recvt f) s) next
        { ss := [f.sa.toNat], core := fun c x => if c = cx.core then boundChan cx ch x else x } fun t =>
          t.sAt cx f.sa.toNat = some (landed cx f.sa.toNat (receiveWord gen 0 0))
      | some m => Completes s cx (exec (.recvt f) s) next
        { ss := f.sa.toNat :: (List.range 16).map (f.sd.toNat + ·)
          core := fun c x => if c = cx.core ∧ ch ≠ 63 then
            { x with chans := tmod x.chans ch fun e =>
                { e with msgs := (e.msgs.eraseIdx skip ++ e.backing).take 4
                         backing := (e.msgs.eraseIdx skip ++ e.backing).drop 4 } } else x
          group := fun g => if ch = 63 then 
            { g with q := { g.q with errq := g.q.errq.eraseIdx skip, errDrop := false } } else g
          block := fun k => { k with exposed := true } } fun t =>
            (∀ i, i < 16 → t.sAt cx (f.sd.toNat + i) = some (m.1.getD i 0)) ∧
            t.sAt cx f.sa.toNat = some (landed cx f.sa.toNat (receiveWord gen m.2 m.1.length)))

/-- Messages at their destination (R204, R206 to R209, R309): a SEND or SENDV message that is the first to
land enters its channel, waits while the channel holds 4, enters the backing of a channel whose block is
context-saved, and waits while that holds 256; or it is dropped with a NACK of kind 1 for an old generation and 2
for a free channel or another partition; the receive posted first takes the message at the head of its channel, and exposes the interval in
which it was posted when that is the current one; a NACK enters the
error queue of its sender's group, or is dropped with 4 there; an active message joins the queue, and its
handler starts as a block of one group with the payload in s0 up. The order of the reasons of a NACK, and the
handler's block as a gang of its own with GANGID and BLOCKID 0 and GANGSIZE 1, are the model's choices (log entries
52 and 51). -/
def Obligations.MessageEvents : Prop :=
  (∀ (s : State) (c : Nat) (m : Msg) (rest : List Msg), (s.core c).landing = m :: rest → m.kind = 0 →
    (s.core c).resetBy = [] →
    let e := tget {} (s.core c).chans m.chan
    let o := exec (.messageArrival c) s
    let nack (k : Nat) : Prop := ∃ t, o = .next t ∧ Landed s t c m rest ∧
      (t.core c).outNacks = (s.core c).outNacks ++ [{ m with kind := 2, nack := k }]
    (e.state = 0 ∨ s.chanVf c e ≠ some m.part → nack 2) ∧
    (e.state ≠ 0 → s.chanVf c e = some m.part → e.gen ≠ m.dest.toNat / 2 ^ 20 → nack 1) ∧
    (e.state = 1 → s.chanVf c e = some m.part → e.gen = m.dest.toNat / 2 ^ 20 → e.backing = [] →
      e.msgs.length < 4 → ∃ t, o = .next t ∧ Landed s t c m rest ∧
        tget {} (t.core c).chans m.chan = { e with msgs := e.msgs ++ [m] }) ∧
    (2 ≤ e.state → s.chanVf c e = some m.part → e.gen = m.dest.toNat / 2 ^ 20 → e.backing.length < 256 →
      ∃ t, o = .next t ∧ Landed s t c m rest ∧
        tget {} (t.core c).chans m.chan = { e with backing := e.backing ++ [m] }) ∧
    (rest = [] → s.chanVf c e = some m.part → e.gen = m.dest.toNat / 2 ^ 20 →
      e.state = 1 ∧ 4 ≤ e.msgs.length ∨ 2 ≤ e.state ∧ 256 ≤ e.backing.length → Held s o)) ∧
  (∀ (s : State) (c g ch : Nat) (y : Group) (p : Posted) (m : Msg) (ms : List Msg), s.group? c g = some y →
    ch ≠ 63 → y.ended = false → p ∈ y.q.posted → p.chan = ch → p.dst + 16 ≤ 56 → p.sa < 56 →
    (p.sa < p.dst ∨ p.dst + 16 ≤ p.sa ∨ p.isV = true) →
    (∀ kg ∈ (s.core c).groups, ∀ q ∈ kg.2.q.posted, q.chan = ch → q = p ∨ p.num < q.num) →
    (tget {} (s.core c).chans ch).msgs = m :: ms →
    ∃ t z k, exec (.receiveFill c g ch) s = .next t ∧ t.group? c g = some z ∧
      z.q.posted = y.q.posted.erase p ∧ z.cmds.r = y.cmds.r - 1 ∧
      (tget {} (t.core c).chans ch).msgs = (ms ++ (tget {} (s.core c).chans ch).backing).take 4 ∧
      (s.block? c y.block = some k → ∃ k', t.block? c y.block = some k' ∧
        k'.exposed = (k.exposed || decide (k.interval = p.interval))) ∧
      tget 0 z.regs.s p.sa = receiveWord (tget {} (s.core c).chans ch).gen m.src m.payload.length ∧
      (p.isV = false → ∀ i, i < 16 → tget 0 z.regs.s (p.dst + i) = m.payload.getD i 0) ∧
      (p.isV = true → ∀ i l, (lanes p.lanes)[i]? = some l →
        tget 0 z.regs.v (96 * p.dst + l) = m.payload.getD i 0)) ∧
  (∀ (s : State) (c : Nat) (m : Msg) (rest : List Msg), (s.core c).nacks = m :: rest →
    ∃ t, exec (.nackArrival c) s = .next t ∧ (t.core c).nacks = rest ∧ ∀ g y, s.group? c g = some y →
      ∃ z, t.group? c g = some z ∧
        z.q.errDrop = (y.q.errDrop || decide (y.uid = m.srcUid ∧ 4 ≤ y.q.errq.length)) ∧ z.q.errq =
        if y.uid = m.srcUid ∧ y.q.errq.length < 4 then
          y.q.errq ++ [[BitVec.ofNat 32 (m.nack + 256 * m.chan), m.dest, m.grid, m.payload.headD 0]]
        else y.q.errq) ∧
  (∀ (s : State) (c : Nat) (m : Msg) (rest : List Msg), (s.core c).landing = m :: rest → m.kind = 1 →
    let o := exec (.amsgArrival c) s
    (s.amFate c m = .enter → ∃ t, o = .next t ∧ Landed s t c m rest ∧ (t.core c).amq = (s.core c).amq ++ [m]) ∧
    (s.handler? m.grid.toNat m.chan = none → ∃ t, o = .next t ∧ Landed s t c m rest ∧
      (t.core c).outNacks = (s.core c).outNacks ++ [{ m with kind := 2, nack :=
        if (s.core c).resetBy ≠ [] ∧ m.grid.toNat ∉ (s.core c).tables then 4 else 2 }])) ∧
  ∀ (s : State) (c : Nat) (m : Msg) (rest : List Msg), (s.core c).ambacking = [] → (s.core c).amq = m :: rest →
    (∀ l h, s.launch? m.grid.toNat = some l → s.handler? m.grid.toNat m.chan = some h →
      Room s c l.vf 1 h.foot (allocSize h.spad) → ∃ t, exec (.handlerStart c) s = .next t ∧
        (t.core c).amq = rest ∧
        BlockStarted s t c { vf := l.vf, asid := l.asid, priv := l.priv, launch := l.id, size := allocSize h.spad
                             padN := h.padN, trapEntry := l.trapEntry, amsg := true }
          [{ gid := 0, lanes := h.lanes, foot := h.foot, entry := h.entry, words := m.payload.take 16 }]) ∧
    (s.launch? m.grid.toNat = none → ∃ t, exec (.handlerStart c) s = .next t ∧ (t.core c).amq = rest ∧
      (t.core c).outNacks = (s.core c).outNacks ++ [{ m with kind := 2, nack := 2 }])

/-- SPAWN (R228 to R230): a bad descriptor traps BADCMD with its lowest bad word, a task at depth 4 traps
TASKDEPTH, and else the task is queued in the lowest free entry, or s[SD] is 0 when there is none. COMMIT
(R231) commits a running task and exposes the interval. TSTAT and TJOIN (R232) write the task's status word, 0
for a stale handle; TJOIN waits for the task's end and frees its entry. That COMMIT exposes the interval in
every group is the reading of log entry 39, and checks of the descriptor follow log entry 37. -/
def Obligations.Tasks : Prop :=
  ∀ (s : State) (cx : Ctx) (f : FmtE), s.ctx? = some cx →
    let next := cx.sp.nextPc f.lx
    let sd := f.sd.toNat
    let w i := cx.s (f.sa.toNat + i)
    let spawn := exec (.spawn f) s
    (match badDescriptor s cx.blk.launch (w 0) (w 1) (w 2) with
    | some n => cx.sp.handler = false → Traps s cx spawn 0x08 (BitVec.ofNat 32 n) cx.sp.pc
    | none =>
      if 4 ≤ cx.blk.depth then cx.sp.handler = false → Traps s cx spawn 0x0C 0 cx.sp.pc
      else if cx.anyLaunched = false ∨ ∀ t, t < 64 → (taskAt s cx.core t).state ≠ 0 then
        WritesScalar s cx spawn next sd 0
      else ∀ t, t < 64 → (taskAt s cx.core t).state = 0 → (∀ u, u < t → (taskAt s cx.core u).state ≠ 0) →
        let gen := if 4095 ≤ (taskAt s cx.core t).gen then 1 else (taskAt s cx.core t).gen + 1
        Completes s cx spawn next
          { ss := [sd]
            core := fun c x => if c = cx.core then
              { x with tasks := tset {} x.tasks t (spawnedTask s cx gen (w 0) (w 1) (w 2) (w 3)) } else x
            block := fun k => { k with exposed := true }
            machine := fun m => { m with uidSeq := m.uidSeq + 1 } } fun m =>
              m.sAt cx sd = some (landed cx sd (BitVec.ofNat 32
                (gen * 2 ^ 20 + (cx.core / 4 % 16) * 2 ^ 16 + (cx.core % 4) * 2 ^ 14 + t * 2 ^ 8)))) ∧
    (match cx.blk.task with
    | none => Completes s cx (exec (.commit f) s) next { block := fun k => { k with exposed := true } } fun _ => True
    | some (owner, t, gen) => Completes s cx (exec (.commit f) s) next
      { block := fun k => { k with exposed := true, committed := true }
        core := fun c x => if c = owner then { x with tasks := tmod x.tasks t fun e =>
          if e.gen = gen ∧ e.state = 3 then { e with state := 4 } else e } else x } fun _ => True) ∧
    (let e := s.taskOf (cx.core / 64) (cx.s f.sa.toNat)
     WritesScalar s cx (exec (.tstat f) s) next sd (match e with
      | none => 0
      | some (_, _, e) => BitVec.ofNat 32 (e.cause * 2 ^ 16 + e.req * 2 ^ 8 + e.state))) ∧
    ∀ h, looksAt cx (cx.s f.sa.toNat) h →
      match s.taskOf (cx.core / 64) h with
      | none => WritesScalar s cx (exec (.tjoin f) s) next sd 0
      | some (c, t, e) =>
        if 5 ≤ e.state then
          Completes s cx (exec (.tjoin f) s) next
            { ss := [sd]
              core := fun k x => if k = c then { x with tasks := tmod x.tasks t fun e => { gen := e.gen } } else x }
            fun m => m.sAt cx sd =
              some (landed cx sd (BitVec.ofNat 32 (e.cause * 2 ^ 16 + e.req * 2 ^ 8 + e.state)))
        else Waits s cx (exec (.tjoin f) s) (.tjoin f) (.word h)

/-- Tasks in their table (R230, R232, R237): the oldest queued task starts on the first core of its order that
has room; a core of the die with room and no eligible group takes the record of another's oldest task under a
lease, and the record leaves the victim as a packet; an acknowledgement of the lease that stands, come to the victim,
starts the task at the thief, and a late one gets a NACK; a lease ends after 65,536 cycles; and a report records the
task's end. That acceptance and start are one move is the reading of log entry 27. -/
def Obligations.TaskEvents : Prop :=
  (∀ (s : State) (c t d : Nat) (e : Task) (h : ProgInfo) (pre post : List Nat), (s.core c).oldestTask = some (t, e) →
    s.handler? e.launch e.entry = some h → taskCores c = pre ++ d :: post →
    (∀ p ∈ pre, ¬ Room s p e.vf 1 e.foot (allocSize e.spad)) → Room s d e.vf 1 e.foot (allocSize e.spad) →
    ∃ u, exec (.taskPlacement c t) s = .next u ∧ BlockStarted s u d (taskBlock e c t) [taskGroup e h] ∧
      (taskAt u c t).state = 3 ∧ (taskAt u c t).lease = 0) ∧
  (∀ (s : State) (thief victim t : Nat) (e : Task), (s.core victim).oldestTask = some (t, e) → thief ≠ victim →
    thief / 64 = victim / 64 →
    (thief / 4 = victim / 4 ∨ ∀ c, c / 4 = thief / 4 → c ≠ thief → (s.core c).oldestTask = none) →
    s.eligible thief = false → (s.core thief).hasRoom 1 e.foot (allocSize e.spad) = true →
    ∃ u r, exec (.taskSteal thief victim) s = .next u ∧
      (u.core victim).outTasks = (s.core victim).outTasks ++ [.record thief r] ∧
      r.victim = victim ∧ r.tslot = t ∧ r.gen = e.gen ∧ r.task = e ∧
      taskAt u victim t = { taskAt s victim t with state := 2, thief, leaseAt := s.now, lease := r.lease }) ∧
  (∀ (s : State) (victim t gen c : Nat) (r : Stolen) (h : ProgInfo), (s.core victim).ackOf t gen = some (c, r) →
    let e := taskAt s victim t
    let o := exec (.stealAcknowledgement victim t gen) s
    (e.gen = gen → e.state = 2 → e.lease = r.lease → s.now < e.leaseAt + 65536 → s.handler? r.task.launch r.task.entry = some h →
      Room s c r.task.vf 1 r.task.foot (allocSize r.task.spad) →
      ∃ u, o = .next u ∧ BlockStarted s u c (taskBlock r.task victim t) [taskGroup r.task h] ∧
        (taskAt u victim t).state = 3 ∧ (u.core victim).acks = (s.core victim).acks.erase (c, r) ∧
        (u.core c).stolen = (s.core c).stolen.filter fun q => decide (q.lease ≠ r.lease)) ∧
    (e.gen = gen → e.state = 2 → e.lease = r.lease → e.leaseAt + 65536 ≤ s.now → Held s o) ∧
    (e.gen ≠ gen ∨ e.state ≠ 2 ∨ e.lease ≠ r.lease →
      ∃ u, o = .next u ∧ (u.core victim).acks = (s.core victim).acks.erase (c, r) ∧
        (u.core victim).outTasks = (s.core victim).outTasks ++ [.nack c r] ∧
        (u.core c).groups = (s.core c).groups)) ∧
  (∀ (s : State) (victim t : Nat), (taskAt s victim t).state = 2 → (taskAt s victim t).leaseAt + 65536 ≤ s.now →
    ∃ u, exec (.leaseExpiry victim t) s = .next u ∧
      taskAt u victim t = { taskAt s victim t with state := 1, lease := 0 }) ∧
  ∀ (s : State) (n owner t gen code : Nat), s.reports[n]? = some (owner, t, gen, code) →
    ∃ u, exec (.taskCompletionReport n) s = .next u ∧ u.reports = s.reports.eraseIdx n ∧
      let e := taskAt s owner t
      taskAt u owner t =
        if e.gen = gen ∧ (e.state = 3 ∨ e.state = 4) then
          if s.spawnerGone e then { gen := e.gen }
          else { e with state := if 256 ≤ code then 6 else 5, cause := code % 256 }
        else e

/-- HGIVE and HGIVE make (R246 to R248, R250, R254), HTAKE and HTAKET (R251), HSTAT (R252) and HDROP (R253):
handles are checked, given to a queue in the order of issue, taken from it in order, described and dropped; a
give or drop first waits for the block's uses of the handle, and is checked again when it has waited. With no
HTAKE of the block waiting at the queue the oldest handle is taken; those that wait are served in the order in
which they came (log entry 68). How a give reaches a saved block, and what a give that waits finds, are readings
of log entry 40. -/
def Obligations.Handles : Prop :=
  ∀ (s : State) (cx : Ctx) (f : FmtE), s.ctx? = some cx →
    let next := cx.sp.nextPc f.lx
    let sd := f.sd.toNat
    let h := cx.s f.sa.toNat
    let reason (h : Word) := s.handleReason cx.core cx.grp.block h
    let bad (o : Out) (n : Nat) : Prop := cx.sp.handler = false → Traps s cx o 0x05 (handleReasonInfo n) cx.sp.pc
    let q := f.ch.toNat
    let exposes (k : Block) : Block := { k with exposed := true }
    let counts : State → State := fun t => { t with uidSeq := t.uidSeq + 1 }
    let drops (h : Word) (stores : Nat) : Prop :=
      let o := exec (.hdrop f) s
      (reason h ≠ 0 → bad o (reason h)) ∧
      (reason h = 0 → busyHandle s cx h stores → Waits s cx o (.hdrop f) (.drop h stores)) ∧
      (reason h = 0 → ¬ busyHandle s cx h stores → Completes s cx o next
        { core := withBuf cx h emptied, block := exposes } fun _ => True)
    (cx.sp.await = .none →
      (let o := exec (.hgive f) s
       if cx.anyLaunched = false then Completes s cx o next {} fun _ => True
       else if reason h ≠ 0 then bad o (reason h)
       else if cx.blk.gangSize ≤ f.imm16.toNat % 4 then bad o 4
       else gives s s cx f o (.hgive f) true h cx.grp.q.stIn s.uidSeq { machine := counts }) ∧
      drops h cx.grp.q.stIn ∧
      (let o := exec (.hgiveMake f) s
       let base := (cx.s f.sa.toNat).toNat
       let len := (cx.s f.sb.toNat).toNat
       let entry i := tget {} (s.core cx.core).bufs i
       if cx.anyLaunched = false then WritesScalar s cx o next sd 0
       else if base % 32 ≠ 0 ∨ len % 32 ≠ 0 ∨ len = 0 ∨ cx.blk.usable < base + len then
         cx.sp.handler = false → Traps s cx o 0x04 127 cx.sp.pc
       else if ∀ i, i < 256 → (entry i).state ≠ 0 then WritesScalar s cx o next sd 0
       else if cx.blk.gangSize ≤ f.imm16.toNat % 4 then bad o 4
       else ∀ i, i < 256 → (entry i).state = 0 → (∀ j, j < i → (entry j).state ≠ 0) → (entry i).gen < 4096 →
         let h := BitVec.ofNat 32 ((entry i).gen * 2 ^ 20 + cx.core % 4 * 2 ^ 18 + i * 2 ^ 10)
         let made (y : Buf) : Buf :=
           { y with state := 1, hcore := cx.core % 4, hblk := cx.grp.block, home := cx.grp.block
                    len32 := len / 32, base := cx.blk.base + base }
         gives s (s.modBuf cx.core h made) cx f o (.hgiveMake f) false h 0 s.uidSeq
             { ss := [sd], core := withBuf cx h made, machine := counts } ∧
           ∀ t, o = .next t → t.sAt cx sd = some (landed cx sd h))) ∧
    (∀ h stores n b r, cx.sp.await = .give h stores n b r →
      ∀ i ∈ [(Instr.hgive f, true), (.hgiveMake f, false)],
        (reason h ≠ 0 → bad (exec i.1 s) (reason h)) ∧
        (reason h = 0 → gives s s cx f (exec i.1 s) i.1 i.2 h stores n {})) ∧
    (∀ h stores, cx.sp.await = .drop h stores → drops h stores) ∧
    (let l := s.queueOf cx.core cx.blk q
     let takes (i : Instr) (k : Nat) (h : Word) : Prop := Completes s cx (exec i s) next
        { ss := [sd]
          core := withBuf cx h fun y => { y with state := 1, hq := 0, hcore := cx.core % 4, hblk := cx.grp.block, buid := 0 }
          block := fun b => { b with hq := tset [] b.hq q (l.take k ++ l.drop (k + 1)), exposed := true } } fun t =>
          t.sAt cx sd = some (landed cx sd h)
     let k := takersBefore s cx q (cx.sp.await.arrival s.uidSeq)
     let j := takersBefore s cx q s.uidSeq
     (match l[k]? with
      | none => match cx.sp.await with
        | .take r m => Waits s cx (exec (.htake f) s) (.htake f) (.take r m)
        | _ => Waits s cx (exec (.htake f) s) (.htake f) (.take q s.uidSeq) { machine := counts }
      | some h => takes (.htake f) k h) ∧
     (match l[j]? with
      | none => WritesScalar s cx (exec (.htaket f) s) next sd 0
      | some h => takes (.htaket f) j h) ∧
     ∀ n, (∀ kg ∈ (s.core cx.core).groups, kg.2.block = cx.grp.block → ∀ p ∈ kg.2.splits, p.wait = 3 →
       ∀ m, p.await = .take q m → n ≤ m) → takersBefore s cx q n = 0) ∧
    WritesScalar s cx (exec (.hstat f) s) next sd (bufferWord s cx h)

/-- MLOADW, MSWAP, MLOOP, MDRAIN and MZERO (R258 to R261, R264, R268, R269, R275) at issue, with the checks of
their descriptors as the model computes them; MSTAT (R276) writes the word that it selects, and sel 1 clears
the group's; without a launched lane it has no effect. The operand numbers of a status are the model's choice (log entry 42). -/
def Obligations.MatrixInstructions : Prop :=
  ∀ (s : State) (cx : Ctx) (f : FmtE), s.ctx? = some cx →
    let next := cx.sp.nextPc f.lx
    let four n := (List.range 4).map fun i => cx.s (n + i)
    let off := cx.s f.sa.toNat
    let h := cx.s f.sb.toNat
    let imm := f.imm16.toNat
    let x := s.cluster (cx.core / 4)
    let p := f.imm16.getLsbD 5
    EntersEngine s cx f (.mloadw f) 0 0 0 [off] [h] (if off.toNat % 256 ≠ 0 then some (6, 1) else none)
      [{ opnd := 1, h, off := off.toNat, len := 65536 }] ∧
    EntersEngine s cx f (.mswap f) 1 0 0 [] [] none [] ∧
    EntersEngine s cx f (.mloop f) 2 (imm % 4) imm (four f.sa.toNat) (four f.sb.toNat)
      (loopStatus (four f.sa.toNat) (four f.sb.toNat) cx.sp.fmt p)
      (loopRanges (four f.sa.toNat) (four f.sb.toNat) cx.sp.fmt p) ∧
    EntersEngine s cx f (.mzero f) 4 (imm % 4) 0 [] [] none [] ∧
    (cx.sp.await = .none →
      EntersEngine s cx f (.mdrain f) 3 (imm % 4) imm (four f.sa.toNat) [h]
        (drainStatus (four f.sa.toNat) cx.sp.fmt cx.grp.cvm (f.imm16.getLsbD 2))
        (drainRanges (four f.sa.toNat) h cx.sp.fmt cx.grp.cvm (f.imm16.getLsbD 2))) ∧
    (∀ n, cx.sp.await = .drain n → Waits s cx (exec (.mdrain f) s) (.mdrain f) (.drain n)) ∧
    (cx.sp.await = .drained → Completes s cx (exec (.mdrain f) s) next {} fun _ => True) ∧
    if cx.anyLaunched = false then Completes s cx (exec (.mstat f) s) next {} fun _ => True
    else Completes s cx (exec (.mstat f) s) next
      { ss := [f.sd.toNat], group := fun g => if imm = 1 then { g with mstat := 0 } else g } fun t =>
      t.sAt cx f.sd.toNat = some (landed cx f.sd.toNat (
        if imm = 2 then BitVec.ofNat 32 (x.offline.toNat * 2 ^ 31 + x.chkpause.toNat * 2 ^ 30 +
          x.mapped.toNat * 2 ^ 29 + x.sparebad.toNat * 2 ^ 28 + (if x.mapped then x.maprow * 2 ^ 16 else 0) +
          x.entries.length * 2 ^ 8 + x.passes % 128)
        else if imm = 3 then BitVec.ofNat 32 (min 255 x.names * 2 ^ 24 + x.nameValid.toNat * 2 ^ 23 +
          x.nameSpare.toNat * 2 ^ 16 + x.nameCol * 2 ^ 8 + if x.nameSpare then 0 else x.nameRow)
        else cx.grp.mstat))

/-- The matrix engine's own steps (R258, R263 to R274): the chosen loop's pass adds its products to the rows
of its tile alone; loops age; entries complete; planes load and swap; drains and zeroings take the drain path
and finish after their time; an operand fault or a checker's finding holds or replays the loop, and the replay
names a cell, or takes the engine offline and posts a trap; service brings the engine back; and a posted trap
starts its handler. What a replay agrees with is the event's own word. Details of plane spaces, checks
and drains follow log entry 43. -/
def Obligations.MatrixEvents : Prop :=
  (∀ (old : Word) (a b : List Int), passElem false 1 old (a.map FVal.ofInt) (b.map FVal.ofInt) [] [] =
    BitVec.ofInt 32 (old.toInt + (List.zipWith (· * ·) a b).sum)) ∧
  ∀ (s : State) (k : Nat) (e : MEntry),
    let x := s.cluster k
    let left (o : Out) (also : State → Prop) : Prop := ∃ t, o = .next t ∧ EntryLeft s t k e ∧ also t
    let turns (o : Out) (f : MEntry → MEntry) (also : State → Prop) : Prop :=
      ∃ t, o = .next t ∧ (t.cluster k).entries = entriesWith s k e.num f ∧ also t
    let posts (t : State) (cause info : Nat) : Prop := ∀ y, s.group? e.core e.gslot = some y → y.uid = e.uid →
      ∃ z, t.group? e.core e.gslot = some z ∧ z.trap.matrix = y.trap.matrix ++
        [{ split := e.split, cause, info := BitVec.ofNat 32 info, pc := 0, resume := 0, posted := true }]
    let sc := s.stepScales x e
    let grants : Prop := x.choice = some e ∧ (∀ f ∈ x.entries, f.ageDue s.now = false) ∧
      s.grantStatus x e = none ∧ s.readFault (s.stepReads x e e.step) = none ∧ badScales sc = none ∧ e.loop.m ≤ 256
    let alone : Prop := ∀ f ∈ x.entries, f.num = e.num → f = e
    (∀ row col outcome, grants → (e.mism.find? fun m => m.1 == e.step) = some (e.step, row, col, outcome) →
      (outcome < 2 → ∃ t, exec (.passGrant k) s = .next t ∧ (t.cluster k).nameCol = col ∧
        (t.cluster k).names = min 255 (x.names + 1) ∧ (t.cluster k).nameSpare = decide (outcome = 0) ∧
        (t.cluster k).passes = x.passes + 1 ∧ (outcome = 1 → (t.cluster k).nameRow = row)) ∧
      (outcome = 2 → ∃ t, exec (.passGrant k) s = .next t ∧ (t.cluster k).offline = true ∧
        (t.cluster k).entries = [] ∧ posts t 0x09 (2 ^ 28 + 2))) ∧
    (grants → (e.mism.find? fun m => m.1 == e.step) = none →
      turns (exec (.passGrant k) s)
        (fun y => { y with state := 1, ran := true, step := y.step + 1, row := x.passes % 128 }) fun t =>
        (t.cluster k).passes = x.passes + 1 ∧
        let d := e.loop
        let plane := if e.p then x.active.bytes
          else s.planeAt (s.spaceIn e d.bh) (d.boff + 256 * d.binc * e.step)
        let fa := (elemFmt (fmtAF e.fmt)).getD (.float fp32)
        let fb := (elemFmt (fmtBF e.fmt)).getD (.float fp32)
        let ones := List.replicate (scaleWords (fmtAF e.fmt)) (some (FVal.fin false 1 1 0))
        ∀ i j w, i < 4 → j < 256 → w < 256 →
          accWord t k i j w = if i = e.tile ∧ j < d.m then
            passElem (scaledA e.fmt || scaledB e.fmt) (fmtACC e.fmt)
              (if e.z = true ∧ e.step = 0 then 0 else accWord s k i j w)
              (valuesOf fa (s.locBytes (s.spaceIn e d.ah) (d.aoff + 256 * d.ainc * e.step + d.astride * j) 256))
              (valuesOf fb (tblBytes plane (256 * w) 256))
              (if scaledA e.fmt then (sc.1.getD j []).map scaleVal else ones)
              (if scaledB e.fmt then (sc.2.getD w []).map scaleVal else ones)
          else accWord s k i j w) ∧
    ∀ slot, x.entryAt? slot = some e →
    (e.ageDue s.now = true → turns (exec (.loopPriorityAging k slot) s) (fun y => { y with aged := true })
      fun _ => True) ∧
    (e.kind = 2 → e.state = 1 → e.ran = true → e.step = e.loop.ks →
      left (exec (.matrixEntryComplete k slot) s) fun t => e.p = false →
        (t.cluster k).active.tag = none ∧ (t.cluster k).shadowP.tag = none) ∧
    (alone → e.kind = 0 → x.free e = true → s.readFault [s.planeRead e] = none →
      left (exec (.planeLoad k slot) s) fun t => (t.cluster k).shadowP.tag = some (e.launch, e.gang) ∧
        ∀ a, a < 65536 → tget 0 (t.cluster k).shadowP.bytes a =
          s.spadByte (s.planeRead e).loc.home ((s.planeRead e).loc.base + (s.planeRead e).off + a)) ∧
    (alone → e.kind = 1 → x.free e = true → left (exec (.planeSwap k slot) s) fun t =>
      (t.cluster k).active = x.shadowP ∧ (t.cluster k).shadowP = x.active) ∧
    (e.kind = 3 ∨ e.kind = 4 →
      let o := exec (if e.kind = 3 then .drainPerform k slot else .zeroPerform k slot) s
      let rows := (drainDesc e.a).rows
      (e.state = 0 → x.free e = true → x.draining = false →
        turns o (fun y => { y with state := 1, began := s.now }) fun _ => True) ∧
      (e.state = 1 → x.offline = false → e.began + (if e.kind = 3 then 16 + rows else 272) ≤ s.now →
        left o fun t =>
          (∀ y p, s.group? e.core e.gslot = some y → y.uid = e.uid → p ∈ y.splits → p.await = .drain e.num →
            ∃ z, t.group? e.core e.gslot = some z ∧ { p with await := .drained } ∈ z.splits) ∧
          (e.kind = 4 → ∀ j w, j < 256 → w < 256 → accWord t k e.tile j w = 0) ∧
          (e.kind = 3 → e.bs = false → 0 < rows → rows - 1 ∉ e.skip →
            let d := drainDesc e.a
            let fo := (elemFmt (fmtOUTF e.fmt)).getD (.float fp32)
            let field := cvmField e.cvm (fmtOUTF e.fmt)
            let rnd n := leNat (s.locBytes (s.spaceIn e 0) (d.rndoff + 2 * (256 * (rows - 1) + n)) 2)
            let p := s.spaceIn e (wd e.b 0)
            let out := packElems fo.width ((x.row e.tile (rows - 1)).zipIdx.map fun wi =>
              fo.round (rmode (field % 8) (rnd wi.2) 16) (decide (8 ≤ field)) (accVal (fmtACC e.fmt) wi.1))
            field % 8 ≠ 4 → ∀ i, i < out.length →
              t.spadByte p.home (p.base + d.doff + d.dstride * (rows - 1) + i) = out.getD i 0))) ∧
    (∀ o h, e.kind = 0 → x.free e = true → s.readFault [s.planeRead e] = some (o, h) → s.posted e = true →
      turns (exec (.operandFault k slot) s) (fun y => { y with state := 2, step := 0, ran := true }) fun t =>
        (t.cluster k).shadowP.tag = none ∧ posts t (if h then 0x05 else 0x07)
          (2 ^ 28 + o * 2 ^ 29 + e.slot * 2 ^ 16 + if h then 512 else 0)) ∧
    (∀ col outcome, e.kind = 2 → e.state = 1 → 0 < e.step → x.chkpause = false → x.offline = false → col < 256 →
      outcome < 3 → turns (exec (.spareRowMismatch k slot col outcome) s)
        (fun y => { y with step := 0, mism := (y.step - 1, y.row, col, outcome) :: y.mism }) fun _ => True) ∧
    (∀ row, e.kind = 2 → e.state = 1 → 0 < e.step → row < e.loop.m →
      (e.replayed = false → turns (exec (.accumulatorError k slot row) s)
        (fun y => { y with step := 0, replayed := true }) fun _ => True) ∧
      (e.replayed = true → left (exec (.accumulatorError k slot row) s) fun t =>
        posts t 0x09 (2 ^ 28 + 1) ∧ ∀ w, w < 256 → accWord t k e.tile row w = 0x7FC00000)) ∧
    (∃ t, exec (.engineService k 1) s = .next t ∧ (t.cluster k).offline = false ∧ (t.cluster k).acc = x.acc ∧
      (t.cluster k).names = 0 ∧ (t.cluster k).mapped = false ∧ (t.cluster k).entries = x.entries) ∧
    ∀ (c g : Nat) (y : Group) (b : Block) (i : Nat) (hd : ProgInfo) (p : Split) (t0 : PendTrap)
      (rest : List PendTrap), s.group? c g = some y → s.block? c y.block = some b → y.trap.matrix = t0 :: rest →
      y.trap.active = false → y.trap.pending = none → y.ended = false → y.releasing = false → b.rolling = none →
      (y.splits.find? fun q => decide (q.id = t0.split)) = some p → p.handler = false →
      (s.core c).trapOwner = none → b.trapEntry = some i → s.handler? b.launch i = some hd →
      ∃ t z q, exec (.matrixTrapDelivery c g) s = .next t ∧ t.group? c g = some z ∧ z.trap.active = true ∧
        z.trap.cause = t0.cause ∧ z.trap.info = t0.info ∧ z.trap.pc = p.pc ∧ z.trap.resume = some p.pc ∧
        z.trap.matrix = rest ∧ q ∈ z.splits ∧ q.handler = true ∧ q.pc = hd.entry ∧ q.exec = p.exec ∧
        (t.core c).trapOwner = some g

/-- CVJOIN and CVLEAVE (R298, R299): a join leaves another convoy, asks the owner die and writes its answer; a
leave writes 1 when the group was a member and removes it. The owner die creates a convoy, or refuses a bad
address or rein (R288, R298), which leaves the group in no convoy; a bound that has come, or in fixed-latency
mode is due, reaches its member (R292, R333); and a timer at its limit unhitches (R293,
R294). That a join stands at once at the owner die, die 0 for an owner above 3, is the reading of log entry 27. -/
def Obligations.Convoys : Prop :=
  (∀ (s : State) (cx : Ctx) (f : FmtE), s.ctx? = some cx →
    let next := cx.sp.nextPc f.lx
    let sd := f.sd.toNat
    let join := exec (.cvjoin f) s
    let a := (cx.s (f.sa.toNat + 1)).toNat * 2 ^ 32 + (cx.s f.sa.toNat).toNat
    let owner := a / 2 ^ 53 % 8
    let d := if owner ≤ 3 ∧ a < 2 ^ 56 then owner else 0
    let ask : Ask := { id := s.uidSeq, core := cx.core, slot := cx.slot, uid := cx.grp.uid, split := cx.sp.id
                       blockUid := cx.blk.uid, vf := cx.blk.vf, asid := cx.blk.asid, addr := a, len := 0
                       scope := 0, rein := (cx.s f.sb.toNat).toNat, part := cx.blk.vf
                       block := cx.grp.block, interval := cx.blk.interval }
    let stays := cx.grp.cv.id = 0 ∨ s.inConvoy cx.grp cx.blk.vf a = true
    (cx.sp.await = .none → cx.anyLaunched = false → WritesScalar s cx join next sd 0) ∧
    (cx.sp.await = .none → cx.anyLaunched = true → stays → Waits s cx join (.cvjoin f) (.asked s.uidSeq)
      { machine := fun t => ({ t with uidSeq := t.uidSeq + 1 } : State).modDie d fun x =>
          { x with joins := x.joins ++ [ask] } }) ∧
    (cx.sp.await = .none → cx.anyLaunched = true → ¬ stays → ∃ t g p n, join = .next t ∧ t.mark = .waiting ∧
      t.grpAt cx = some g ∧ g.cv.id = 0 ∧ (t.die d).joins = (s.die d).joins ++ [{ ask with id := n }] ∧
      t.splitAt cx = some p ∧ p.wait = 3 ∧ p.await = .asked n ∧ p.waitI = some (.cvjoin f)) ∧
    (∀ n, cx.sp.await = .asked n → Waits s cx join (.cvjoin f) (.asked n)) ∧
    (∀ w, cx.sp.await = .answered w → WritesScalar s cx join next sd w) ∧
    (cx.grp.cv.id = 0 → WritesScalar s cx (exec (.cvleave f) s) next sd 0) ∧
    (cx.grp.cv.id ≠ 0 → ∃ t g, exec (.cvleave f) s = .next t ∧ t.mark = .done ∧ t.pcAt cx = some next ∧
      t.sAt cx sd = some (landed cx sd 1) ∧ t.grpAt cx = some g ∧ g.cv.id = 0 ∧ g.cv.members = 0 ∧
      g.cv.slip = 0 ∧ g.cv.off = 0 ∧ g.cv.bound = none ∧ g.cv.stat.toNat / 16 % 8 = 0)) ∧
  (∀ (s : State) (d k g : Nat) (a : Ask) (rest : List Ask) (y : Group), (s.die d).joins = a :: rest →
    s.group? a.core a.slot = some y → y.uid = a.uid → (∃ p ∈ y.splits, p.await = .asked a.id) →
    let o := exec (.convoyAnswer d) s
    let answer (t : State) (w : Word) : Prop := (t.die d).joins = rest ∧ ∃ z, t.group? a.core a.slot = some z ∧
      (8 ≤ w.toNat → z.cv.id = 0) ∧
      ∀ p ∈ y.splits, p.await = .asked a.id → { p with await := .answered w } ∈ z.splits
    (s.streamGranule a = none ∨ s.streamGranule a = some g ∧ a.addr % g ≠ 0 → ∃ t, o = .next t ∧ answer t 11) ∧
    (s.streamGranule a = some g → a.addr % g = 0 → (s.die d).convoyOf a.vf a.addr = none →
      (a.rein = 0 ∨ a.rein % g ≠ 0 ∨ 2 ^ 20 < a.rein → ∃ t, o = .next t ∧ answer t 10) ∧
      (a.rein ≠ 0 → a.rein % g = 0 → a.rein ≤ 2 ^ 20 → k < 64 → (tget {} (s.die d).convoys k).members = [] →
        (∀ j, j < k → (tget {} (s.die d).convoys j).members ≠ []) →
        ∃ t z v, o = .next t ∧ answer t 1 ∧ t.group? a.core a.slot = some z ∧
          z.cv.id = BitVec.ofNat 32 ((tget {} (s.die d).convoys k).gen * 2 ^ 20 + d * 2 ^ 6 + k) ∧
          z.cv.slip = BitVec.ofNat 32 a.rein ∧ z.cv.off = 0 ∧ z.cv.members = BitVec.ofNat 32 (1 * 2 ^ 8 + 1) ∧
          z.cv.stat.toNat / 16 % 8 = 1 ∧ tfind? (t.die d).convoys k = some v ∧ v.vf = a.vf ∧ v.addr = a.addr ∧
          v.rein = a.rein ∧ v.g = g ∧ v.members.length = 1))) ∧
  (∀ (s : State) (d k i t0 : Nat) (v : Convoy) (m : Member) (b : Option Nat) (rest : List (Nat × Option Nat))
    (y : Group), tfind? (s.die d).convoys k = some v → tfind? v.members i = some m →
    (if s.fixlat then m.due = (t0, b) :: rest ∧ t0 ≤ s.now
     else m.here.head? = some t0 ∧ (m.due.find? fun x => x.1 == t0) = some (t0, b)) → s.group? m.core m.slot = some y → y.uid = m.uid →
    ∃ t z, exec (.boundUpdate d k i) s = .next t ∧ t.group? m.core m.slot = some z ∧ z.cv.bound = b) ∧
  ∀ (s : State) (c g : Nat) (y : Group), s.group? c g = some y → y.cv.id ≠ 0 →
    y.cv.stat.toNat / 16 % 8 ∈ [1, 2, 4] → max 1024 y.cv.tmo.toNat ≤ y.cv.timer →
    ∃ t z, exec (.unhitchTimeout c g) s = .next t ∧ t.group? c g = some z ∧ z.cv.bound = none ∧
      z.stat = y.stat ||| 32 ∧ z.cv.stat.toNat / 16 % 8 = 3 ∧ z.cv.stat.toNat / 2 ^ 12 % 16 = 1 ∧
      z.cv.stat.toNat / 2 ^ 24 = min 255 (y.cv.stat.toNat / 2 ^ 24 + 1) ∧
      ∀ m ∈ (t.core c).cmds, m.slot = g → m.uid = y.uid → m.held = none

/-- Engine commands (R188, R189, R193 to R195, R357, R399, R403, R404): a command of any opcode starts in the order of
its queue, a collective combined here when the combiner has an entry for it; a copying command reads the next piece
of its source, and FILL its pattern, and keeps it until it is written, to scratchpad or as a request to global
memory; ATOM asks for its atomic; a collective contributes, packet by packet to another rank; PAGEREQ passes resident
pages; TLBINV removes slice entries; RCOPY sends a unit to its rank once the one before is acknowledged; a convoy
stream at its bound holds its unit (R291); and a command with no act left completes into its batch. Whether PAGEREQ
waits for a page that is not resident is open (log entry 23). Which unit of a command comes next, and that an index
is read as its element is decided, are readings of log entry 33. -/
def Obligations.EngineCommands : Prop :=
  ∀ (s : State) (c : Nat) (m : Cmd),
    let copies : List (Nat × (Nat → Nat → Instr)) := [(1, .copy), (2, .copy2d), (4, .gather), (7, .reduce),
      (8, .allred), (9, .bcast), (12, .rcopy)]
    let n (i : Nat) : Nat := (m.w.getD i 0).toNat
    let rank := (s.cmdPg m).rank
    (∀ x ∈ copies ++ [(3, .fill), (5, .scatter), (6, .atom), (10, .pagereq), (11, .tlbinv)], m.op = x.1 →
      cmdAt s c m.seq = some m → m.startedAt = none → (s.core c).nextOf m.queue = some m →
      (∀ y ∈ (s.core c).cmds, y.queue = m.queue → y.startedAt ≠ some s.now) →
      (m.gathers = true → n 12 = rank → s.entryFor ((s.cmdPg m).key, m.w.getD 13 0) = true) →
      ∃ t, exec (x.2 c m.seq) s = .next t ∧
        (cmdAt t c m.seq).map (fun y => (y.startedAt, y.rest)) =
          some (some s.now, if m.total = 0 then [] else [(0, m.total)]) ∧
        ∀ y, s.group? c m.slot = some y → y.uid = m.uid →
          ∃ z, t.group? c m.slot = some z ∧ z.cmds.p = y.cmds.p - 1) ∧
    (Acting s c m →
      (∀ x ∈ copies ++ [(5, .scatter)], ∀ p, m.op = x.1 → m.outbox = [] → m.nextPos s c = some p →
        m.gathers = false →
        let o := exec (x.2 c m.seq) s
        let u := m.pieceLen s c p
        let goes (k : Nat) (y : Cmd) : Cmd := { y with rest := cutOut y.rest p k, aim := {} }
        (∀ f h a, m.srcAt s c p = some f → f.isGlob = false →
          (m.op = 4 → ∃ e, m.srcAt s c (p - p % m.elem) = some e ∧ (s.spot c m e m.elem).isSome = true) →
          let k := if m.aim.len = 0 then u else min m.aim.len u
          s.spot c m f k = some (h, a) →
          Acts c m o (fun y => { goes k y with
            outbox := [(p, (List.range k).map fun i => s.spadByte h (a + i), s.spadPoisoned h a k, false)] }) fun t =>
              ∀ b i, t.spadByte b i = s.spadByte b i) ∧
        (∀ a, m.srcAt s c p = some (.glob a) → a / 2 ^ 53 % 8 ≤ 4 → m.stream = false →
          let r := unitRequest s c m 0 a u
          (State.sendReq { s with uidSeq := s.uidSeq + 1 } r).isSome = true →
          Acts c m o (fun y => { goes u y with pend := y.pend ++ [(s.uidSeq, p, u, a)], nextAt := nextUnit s m })
            fun t => Sent s t r) ∧
        ∀ a d k v i b y w, m.srcAt s c p = some (.glob a) → a / 2 ^ 53 % 8 ≤ 4 →
          s.streamOf c m = some (d, k, v, i, b) → s.group? c m.slot = some y → b.state = 1 ∨ b.state = 4 →
          let u := v.g * ((n 9 + p) / v.g)
          y.cv.timer < max 1024 y.cv.tmo.toNat → y.cv.bound = some w → w ≤ u → b.front ≤ u → m.held ≠ some u →
          Acts c m o (fun y => { y with held := some u }) fun t => ∃ z, t.group? c m.slot = some z ∧
            z.cv.off = BitVec.ofNat 32 u ∧ z.cv.stat.toNat / 16 % 8 = 2) ∧
      (∀ p, m.op = 3 → m.outbox = [] → m.nextPos s c = some p →
        let k := m.pieceLen s c p
        Acts c m (exec (.fill c m.seq) s) (fun y => { y with
          rest := cutOut y.rest p k, aim := {}
          outbox := [(p, (List.range k).map fun i => BitVec.ofNat 8 (n 10 / 256 ^ ((p + i) % 4)), false, false)] })
          fun t => ∀ b i, t.spadByte b i = s.spadByte b i) ∧
      (∀ x ∈ copies ++ [(3, .fill), (5, .scatter)], ∀ pos l nr a, m.op = x.1 → m.outbox = [(pos, l, false, nr)] →
        m.pend = [] → m.aim = {} → l ≠ [] → m.gathers = false ∨ m.phase = 2 → m.dstAt s c pos = some (.glob a) →
        s.isRemote m = false → a / 2 ^ 53 % 8 ≤ 3 ∨ a / 2 ^ 53 % 8 = 4 ∧ (s.fn m.vf).contained = false →
        l.length = min (m.run pos) (s.unitAt m.asid m.vf a - a % s.unitAt m.asid m.vf a) →
        (∀ y ∈ m.waiting s c, y.1 = pos ∨ a + l.length ≤ y.2.1) →
        (∀ r ∈ m.rest, r.1 + r.2 ≤ pos ∨ pos + l.length ≤ r.1) → (∀ f ∈ s.fly, f.core = c → f.seq ≠ m.seq) →
        let r := { unitRequest s c m 1 a l.length with data := l, poison := false }
        (State.sendReq { s with uidSeq := s.uidSeq + 1 } r).isSome = true →
        ∃ t y, exec (x.2 c m.seq) s = .next t ∧ cmdAt t c m.seq = some y ∧ y.outbox = [] ∧ y.rest = m.rest ∧
          y.pend = [] ∧ Sent s t r ∧ (t.fly.map fun f => (f.id, f.owner)) =
            (s.fly.map fun f => (f.id, f.owner)) ++ [(s.uidSeq, a / 2 ^ 53 % 8)]) ∧
      (∀ x ∈ copies ++ [(3, .fill), (6, .atom)], ∀ pos l q h b, m.op = x.1 → m.outbox = [(pos, l, false, false)] →
        m.aim = {} → l ≠ [] → m.gathers = false ∨ m.phase = 2 → (m.op = 6 → m.rest = []) → l.length ≤ m.run pos →
        m.dstAt s c pos = some q → q.isGlob = false → s.spot c m q l.length = some (h, b) →
        Acts c m (exec (x.2 c m.seq) s) (fun y => { y with outbox := [], aim := {} }) fun t => Put s t h b l) ∧
      (∀ pos l q h b, m.op = 5 → m.outbox = [(pos, l, false, false)] → m.aim = {} → l ≠ [] → pos % m.elem = 0 →
        (∀ y ∈ m.waiting s c, pos ≤ y.1) →
        l.length = m.elem → m.dstAt s c pos = some q → q.isGlob = false → s.spot c m q m.elem = some (h, b) →
        let o := exec (.scatter c m.seq) s
        (s.spadSealed h b m.elem = false →
          Acts c m o (fun y => { y with outbox := [], aim := {} }) fun t => Put s t h b l) ∧
        (s.spadSealed h b m.elem = true →
          Acts c m o (fun y => { y with outbox := [], aim := {}, status := y.status ||| bsERROR }) fun t =>
            Put s t h b [])) ∧
      (∀ a, m.op = 6 → m.rest ≠ [] → placeAt m.w 4 = some (.glob a) →
        ¬(a / 2 ^ 53 % 8 = 4 ∧ (s.fn m.vf).contained = true) →
        let b := 2 ^ (n 10 / 256 % 4)
        let r := { unitRequest s c m 2 a b with
          op := n 10 % 16, x := m.w.getD 13 0 ++ m.w.getD 12 0, n := m.w.getD 15 0 ++ m.w.getD 14 0 }
        (State.sendReq { s with uidSeq := s.uidSeq + 1 } r).isSome = true →
        ∃ t y, exec (.atom c m.seq) s = .next t ∧ cmdAt t c m.seq = some y ∧
          y.pend = m.pend ++ [(s.uidSeq, 0, b, a)] ∧ y.rest = [] ∧ Sent s t r) ∧
      (∀ x ∈ [(7, Instr.reduce), (8, Instr.allred), (9, Instr.bcast)], m.op = x.1 → m.gathers = true →
        m.phase = 0 → m.pend = [] → (m.op = 9 ∧ n 12 ≠ rank ∨ m.rest = []) →
        let g := s.cmdPg m
        let data := if m.op = 9 ∧ n 12 ≠ rank then [] else (List.range m.total).map (tget 0 m.buf)
        let p : FabPkt :=
          { kind := 0, key := g.key, src := rank, dst := n 12, core := c, seq := m.seq, op := m.op
            words := [m.w.getD 1 0, m.w.getD 10 0, m.w.getD 11 0, m.w.getD 13 0], data, size := data.length
            bad := m.bufBad, status := m.status &&& (bsERROR ||| bsNONRES)
            cls := if (m.w.getD 0 0).getLsbD 19 then 0 else 1, hub := c / 64 }
        let parts := max 1 ((data.length + 255) / 256)
        let o := exec (x.2 c m.seq) s
        let made (k : Nat) (y : Cmd) : Cmd := { y with rest := [], sent := k, phase := if k < parts then 0 else 1 }
        (n 12 = rank → s.entryFor (g.key, m.w.getD 13 0) = true →
          Acts c m o (made parts) fun t => t.dies = s.dies ∧ t.contribs = s.contribs ++ [p]) ∧
        ∀ u, n 12 ≠ rank → m.sent < parts →
          s.sendFab c m { p with
            off := 256 * m.sent, data := (data.drop (256 * m.sent)).take 256
            bad := m.bufBad.filter fun r => decide (r.1 < 256 * m.sent + 256 ∧ 256 * m.sent < r.1 + r.2) } = some u →
          Acts c m o (made (m.sent + 1)) fun t => t.dies = u.dies ∧ t.contribs = s.contribs) ∧
      (∀ p k0 later a, m.op = 10 → m.rest = (p, k0) :: later → m.srcAt s c p = some (.glob a) →
        let o := exec (.pagereq c m.seq) s
        let k := min k0 (65536 - a % 65536)
        let passes := Acts c m o fun y => { y with rest := cutOut y.rest p k, aim := {} }
        let fails := Acts c m o fun y =>
          { y with rest := cutOut y.rest p k, aim := {}, status := y.status ||| bsERROR }
        match if 4 < a / 2 ^ 53 % 8 then none else (s.die (reqDie a)).walk m.asid m.vf a with
        | none => fails fun _ => True
        | some (leaf, _) => if leaf.resident then passes fun _ => True
          else fails (fun _ => True) ∨ Acts c m o id fun t => t.free = s.free + 1) ∧
      (∀ a, m.op = 11 → m.rest ≠ [] → placeAt m.w 2 = some (.glob a) →
        let d := reqDie a
        let gone (e : TlbEntry) : Bool := decide (e.asid = n 10 % 256 ∧
          (n 10 / 256 % 2 = 1 ∨ e.va < a + n 1 ∧ a < e.va + e.size))
        (∀ r ∈ (s.die d).replicas, ∀ i ∈ r.reads, s.awaited i = false) →
        ∃ t y, exec (.tlbinv c m.seq) s = .next t ∧ cmdAt t c m.seq = some y ∧ y.rest = [] ∧
          (t.die d).tlb = (s.die d).tlb.filter (fun e => !gone e) ∧
          (∀ r ∈ (t.die d).replicas, r ∈ (s.die d).replicas ∧ (r.asid ≠ n 10 % 256 ∨
            n 10 / 256 % 2 ≠ 1 ∧ ¬(r.va < a + n 1 ∧ a < r.va + r.unit))) ∧
          ∀ w ∈ (t.die d).walks, w.asid = n 10 % 256 → w.barred = true) ∧
      (∀ pos l nr a u, m.op = 12 → s.isRemote m = true → m.outbox = [(pos, l, false, nr)] → m.pend = [] →
        m.aim = {} → m.sub = 0 → l ≠ [] → m.dstAt s c pos = some (.glob a) → (s.fn m.vf).contained = false →
        l.length = min (m.run pos) (256 - a % 256) →
        (∀ y ∈ m.waiting s c, y.1 = pos ∨ a + l.length ≤ y.2.1) →
        (∀ r ∈ m.rest, r.1 + r.2 ≤ pos ∨ pos + l.length ≤ r.1) →
        let p : FabPkt := { kind := 3, key := (s.cmdPg m).key, src := rank, dst := n 12, core := c, seq := m.seq
                            va := a, data := l, poison := false }
        s.sendFab c m p = some u →
        ∃ t y, exec (.rcopy c m.seq) s = .next t ∧ cmdAt t c m.seq = some y ∧ y.outbox = [] ∧
          y.sub = 1 ∧ t.dies = u.dies)) ∧
    (cmdAt s c m.seq = some m → m.startedAt ≠ none → (∀ kg ∈ (s.core c).groups, kg.2.ended = false) →
      s.relOk c m = true →
      (m.stopped = true ∧ m.sub = 0 ∨ m.stopped = false ∧
        (m.empty = true ∧ s.fencesOk c m = true ∧ s.acqOk c m = true ∨
          m.empty = false ∧ m.op ≠ 11 ∧ m.rest = [] ∧ m.pend = [] ∧ m.outbox = [] ∧ m.sub = 0 ∧
            (m.gathers = true → m.phase = 2 ∧ m.due = 0) ∧
            (m.op ∈ [7, 8, 9, 12] → ∀ f ∈ s.fly, f.core = c → f.seq ≠ m.seq) ∨
          m.empty = false ∧ m.op = 11 ∧ m.rest = [] ∧ s.tlbOver m = true)) →
      ∃ t, exec (.commandCompletion c m.seq) s = .next t ∧
        (t.core c).cmds = ((s.core c).cmds.filter fun y => decide (y.seq ≠ m.seq)) ∧
        ∀ y i b, s.group? c m.slot = some y → y.uid = m.uid → m.batch = some i →
          tfind? y.cmds.batches i = some b → ∃ z, t.group? c m.slot = some z ∧
            tfind? z.cmds.batches i = some { b with open_ := b.open_ - 1, status := b.status ||| m.status })

/-- Memory (R279 to R284, R303 to R305, R337, R340, R341, R348, R354, R358, R361, R366, R368, R371, R408): a read at
a stop attaches to an open entry or opens one, and its data is decoded and answered to every tag under the address
by which that requester knows the unit; a write or atomic performs at its home, unless the range is sealed or
the unit quarantined; one that a rollback has called off has no effect, and one that performs exposes the
interval of its command; a request is translated through a slice or waits for a walk; seals are kept by the owner
die, and a replica is copied under a Fold entry of its own; host requests perform at their port in the order of
each unit; and a core fetches blocks of code. Model's choices: which of the requests that it may take a stop takes
(log entry 30); replica frames, slice replacement, the time at which a fetch reads and what a rollback calls off
(log entries 22, 21, 44 and 69); that a read of another poison state or leaf opens an entry of its own (log entry
77); where the answer of a request that fails its translation arrives (log entry 27); and that a core may fetch any
block for an ASID that one of its blocks runs under (log entry 65). -/
def Obligations.MemoryEvents : Prop :=
  (∀ (s : State) (d n : Nat) (r : Req), MayTake (s.stop d n) r → s.fixlat = false →
    let y := s.stop d n
    let x := s.die d
    let tag : Tag := { id := r.id, core := r.core, seq := r.seq, uid := r.uid, part := r.vf, asid := r.asid
                       lat := r.lat, va := r.va / r.unit * r.unit, page := r.page }
    let last := (y.folds.filter fun f => decide (f.key = (r.pa, r.vf) ∧ f.req.unit = r.unit ∧ f.copy = none ∧
      f.done = false)).getLast?
    let fits (f : Fold) : Prop := f.closed = false ∧ f.tags.length < 16 ∧ f.poisoned = (r.recorded || r.quar) ∧
      f.req.leaf.enc = r.leaf.enc ∧ f.req.leaf.integ = r.leaf.integ
    let off := r.va % r.unit
    let gone (t : State) : Prop := (t.stop d n).inq = y.inq.filter fun q => decide (q.id ≠ r.id)
    let landed (t : State) : Prop := LeftStop s t d n r.id
    let exposes (t : State) : Prop := ∀ f k, (s.fly.find? fun f => decide (f.id = r.id)) = some f →
      s.block? f.core f.block = some k → k.uid = f.buid → k.interval = f.interval →
      ∃ z, t.block? f.core f.block = some z ∧ z.exposed = true
    (r.kind = 0 →
      (∀ f, last = some f → fits f →
        ∃ a t, exec (.foldReadRequest d n) (aimed s d n a) = .next t ∧ gone t ∧ (t.stop d n).freq = y.freq ∧
          (t.stop d n).fmrg = y.fmrg + 1 ∧ (t.stop d n).ffet = y.ffet ∧ (t.stop d n).folds =
            y.folds.map fun g => if g.num = f.num then { g with tags := g.tags ++ [tag] } else g) ∧
      ((∀ f, last = some f → ¬ fits f) → y.folds.length < 256 →
        ∃ a t, exec (.foldReadRequest d n) (aimed s d n a) = .next t ∧ gone t ∧ (t.stop d n).freq = y.freq ∧
          (t.stop d n).ffet = y.ffet + 1 ∧ (t.stop d n).fmrg = y.fmrg ∧ (t.stop d n).folds = y.folds ++
            [{ num := s.uidSeq, key := (r.pa, r.vf), req := r, tags := [tag], openedAt := r.arrived
               poisoned := r.recorded || r.quar }])) ∧
    ((∀ f ∈ y.folds, f.key.1 = r.pa → f.done = true) →
      (r.kind = 1 ∨ r.kind = 2 → (∃ f ∈ s.fly, f.id = r.id ∧ f.off = true) →
        ∃ a t, exec (if r.kind = 1 then .stopWrite d n else .stopAtomic d n) (aimed s d n a) = .next t ∧
          landed t ∧ (∀ e, memoryOf t e = memoryOf s e) ∧ ∀ c b, t.block? c b = s.block? c b) ∧
      (r.kind = 1 → (∀ f ∈ s.fly, f.id = r.id → f.off = false) → ∃ a,
        let o := exec (.stopWrite d n) (aimed s d n a)
        (x.quarantined r.leaf r.pa = true ∨ meetsSeal s d r r.data.length = true →
          ∃ t, o = .next t ∧ landed t ∧ memoryOf t d = memoryOf s d) ∧
        (x.quarantined r.leaf r.pa = false → meetsSeal s d r r.data.length = false → r.poison = false →
          (r.data.length = granBytes r.leaf.gran → ∃ t, o = .next t ∧ landed t ∧ exposes t ∧
            memoryOf t d = wroteUnit s d r r.data ∧ (∀ e, e ≠ d → memoryOf t e = memoryOf s e) ∧
            (∀ f ∈ (t.stop d (stopOfPa r.pa)).folds, f.key.1 = r.pa → f.closed = true) ∧
            ∀ u, u ∈ (t.stop d (stopOfPa r.pa)).record ↔ u ∈ (s.stop d (stopOfPa r.pa)).record ∧
              ¬(r.pa ≤ 32 * u.1 ∧ 32 * u.1 + granBytes u.2 ≤ r.pa + granBytes r.leaf.gran)) ∧
          (∀ b, r.data.length ≠ granBytes r.leaf.gran → Clean s d r b → ∃ t, o = .next t ∧ landed t ∧
            exposes t ∧ memoryOf t d = wroteUnit s d r (replaced b off r.data) ∧
            (∀ e, e ≠ d → memoryOf t e = memoryOf s e)))) ∧
      (r.kind = 2 → (∀ f ∈ s.fly, f.id = r.id → f.off = false) → ∃ a,
        let o := exec (.stopAtomic d n) (aimed s d n a)
        (meetsSeal s d r r.len = true → ∃ t, o = .next t ∧ landed t ∧ memoryOf t d = memoryOf s d) ∧
        (∀ b, meetsSeal s d r r.len = false → Clean s d r b → r.op < 12 → r.len = 4 ∨ r.len = 8 ∧ r.op ≠ 11 →
          r.unit = granBytes r.leaf.gran → r.len < r.unit → b.length = r.unit → off + r.len ≤ r.unit →
          let old := ((List.range r.len).map fun i => (b.getD (off + i) 0).toNat * 256 ^ i).sum
          let new := bytesOf (engineAtomic r.op r.len old r.x.toNat r.n.toNat) r.len
          ∃ t p, o = .next t ∧ landed t ∧ exposes t ∧ memoryOf t d = wroteUnit s d r (replaced b off new) ∧
            (t.stop d n).replies = y.replies ++ [(0, p)] ∧ p.payload = .reply [tag] b false 0 ∧
            p.dests = [(r.core / 64, r.core / 4 % 16, 0)])))) ∧
  (∀ (s : State) (d n k : Nat) (f : Fold), ((s.stop d n).folds.find? fun g => decide (g.num = k)) = some f →
    s.fixlat = false → f.done = false → (∀ r ∈ (s.stop d n).inq, r.kind ≠ 0 ∨ r.pa ≠ f.key.1) →
    (∀ g ∈ (s.stop d n).folds.takeWhile (fun g => decide (g.num ≠ k)), g.key.1 = f.key.1 → g.done = true) →
    let r := f.req
    let x := s.die d
    let o := exec (.dramDataArrival d n k) s
    let decoded := decodeUnit r.leaf r.vf r.pa (x.stored r.leaf.gran r.pa).1 (x.stored r.leaf.gran r.pa).2
    let reply (bytes : List Byte) (poison : Bool) (st : Word) (also : State → Prop) : Prop :=
      ∃ t p, o = .next t ∧ (t.stop d n).replies = (s.stop d n).replies ++ [(k, p)] ∧
        p.payload = .reply f.tags bytes poison st ∧ p.kind = 1 ∧ p.part = r.vf ∧
        (∀ g ∈ (t.stop d n).folds, g.num = k → g.done = true) ∧ also t
    (f.tags ≠ [] → f.copy = none →
      (∀ b st, f.poisoned = false → decoded = .good b st false →
        reply b false 0 fun t => memoryOf t d = memoryOf s d ∧ (t.stop d n).poisr = (s.stop d n).poisr) ∧
      (f.poisoned = true ∨ decoded = .uncorrectable →
        ∃ b, reply b true bsPOISON fun t =>
          (t.stop d n).poisr = (s.stop d n).poisr + BitVec.ofNat 32 f.tags.length) ∧
      (∀ c fixed, f.poisoned = false → decoded = .badMac c fixed →
        reply (List.replicate (granBytes r.leaf.gran) 0) false bsERROR fun t => (t.fn r.vf).contained = true)) ∧
    ∀ target e va u b st, f.copy = some target → target ≠ d → f.poisoned = false → decoded = .good b st false →
      x.sealedUnit r.pa = some (e, va, u) → e.vf = r.vf → u.leaf = r.leaf →
      ∃ t frame, o = .next t ∧ memoryOf t d = memoryOf s d ∧ (∀ g ∈ (t.stop d n).folds, g.num ≠ k) ∧
        frame % 65536 = r.pa % 65536 ∧ 2 ^ 52 ≤ frame ∧
        memoryOf t target = (let y := (s.die target).writeUnit u.leaf e.vf frame b
          (y.hbm, y.side)) ∧
        { target, pa := r.pa, unit := u.unit, vf := e.vf, asid := e.asid, va, frame, leaf := u.leaf } ∈
          (t.die d).replicas) ∧
  (∀ (s : State) (d n : Nat) (r : Req), ((s.die d).xlat.find? fun q => decide (q.id = n)) = some r →
    (∀ f ∈ s.fly, f.id = n → f.off = false) →
    let x := s.die d
    let o := exec (.unitTranslation d n) s
    let left := x.xlat.filter fun q => decide (q.id ≠ n)
    let fails (st : Word) : Prop := ∃ t, o = .next t ∧ (t.die d).xlat = left ∧
      ∀ m, cmdAt s r.core r.seq = some m → r.kind = 0 → m.stopped = false → m.gathers = false → r.id = n →
        (∃ p ∈ m.pend, p.1 = n) → st = bsERROR → ∃ y, cmdAt t r.core r.seq = some y ∧
          y.status = m.status ||| bsERROR ∧ y.pend = m.pend.filter fun p => decide (p.1 ≠ n)
    (x.rootOf r.asid r.vf = none → fails bsERROR) ∧
    (x.rootOf r.asid r.vf ≠ none → x.hit r.asid r.va = none → x.walking r.asid r.va = false →
      x.walks.length < 64 → ∃ t, o = .next t ∧ (t.die d).xlat = x.xlat ∧ (t.die d).walks = x.walks ++
        [{ id := r.id, asid := r.asid, vf := r.vf, va := r.va, kind := r.kind, began := s.now }]) ∧
    ∀ e, x.rootOf r.asid r.vf ≠ none → x.hit r.asid r.va = some e →
      match x.place r.vf r.va r.kind e.leaf e.size with
      | .error st => fails st
      | .ok u =>
        let q := { r with pa := u.pa, unit := u.unit, leaf := u.leaf, page := (e.va, e.size) }
        let goes (w : Req) (t : State) : Prop := (t.die d).bufs =
          (Die.inject x d q.entry r.router r.port s.now [] (stopPacket d w)).bufs
        let room (w : Req) : Prop := x.canInject q.entry r.router r.port s.now [] (stopPacket d w) = true
        r.len ≤ u.unit - r.va % u.unit →
        (r.va / 2 ^ 53 % 8 = 4 → r.kind ≠ 0 ∨ x.replicaFor q = none →
          ∃ t, o = .next t ∧ (t.die d).xlat = left ∧ t.hostReqs = s.hostReqs ++
            [{ req := q, port := u.pa / 2 ^ 51 % 2, addr := u.pa + r.va % 64 }]) ∧
        (r.va / 2 ^ 53 % 8 ≠ 4 → r.kind ≠ 0 ∨ x.replicaFor q = none → room q →
          ∃ t, o = .next t ∧ (t.die d).xlat = left ∧ goes q t) ∧
        ∀ p, r.va / 2 ^ 53 % 8 ≠ 4 → r.kind = 0 → x.replicaFor q = some p →
          let w := { q with pa := p.frame, replica := some p.target, home := some (d, u.pa) }
          room q → room w → ∃ t, o = .next t ∧ (t.die d).xlat = left ∧ (goes q t ∨ goes w t)) ∧
  (∀ (s : State) (d n : Nat) (w : Walk), ((s.die d).walks.find? fun w => decide (w.id = n)) = some w →
    let x := s.die d
    ∃ t, exec (.pageWalkComplete d n) s = .next t ∧ (t.die d).walks = x.walks.filter (fun v => decide (v.id ≠ n)) ∧
      (w.barred = true → (t.die d).tlb = x.tlb) ∧
      (w.barred = false → ∀ u, x.translate w.asid w.vf w.va w.kind = .ok u →
        ∃ e ∈ (t.die d).tlb, e.asid = w.asid ∧ e.va ≤ w.va ∧ w.va < e.va + e.size) ∧
      (w.barred = false → ∀ st, x.translate w.asid w.vf w.va w.kind = .error st →
        (t.die d).tlb = x.tlb ∧ ∀ r ∈ (t.die d).xlat, r.id ≠ n)) ∧
  (∀ (s : State) (d n : Nat) (a : Ask),
    let x := s.die d
    let sealed (t : State) : Prop := (t.die d).sealReqs = x.sealReqs.filter (fun b => decide (b.id ≠ n))
    (((x.sealReqs.find? fun a => decide (a.id = n)) = some a) → x.arrivedWrites a.vf a.addr a.len = false →
      (¬ Asking s a → ∃ t, exec (.globalSealRequest d n) s = .next t ∧ sealed t ∧
        (t.die d).gseals = x.gseals ∧ (t.die d).outCtl = x.outCtl) ∧
      (Asking s a → ∃ t, exec (.globalSealRequest d n) s = .next t ∧ sealed t ∧
        if 64 ≤ x.gseals.length then (t.die d).gseals = x.gseals ∧ Confirms s t d a 1
        else Confirms s t d a 0 ∧ ExposesAsk s t a ∧ (t.die d).gseals = x.gseals ++
          [{ blockUid := a.blockUid, vf := a.vf, asid := a.asid, addr := a.addr, len := a.len, scope := a.scope }])) ∧
    (((x.unsealReqs.find? fun a => decide (a.id = n)) = some a) → Asking s a →
      let gone (e : GSeal) : Bool := decide (e.blockUid = a.blockUid ∧ e.addr = a.addr ∧ e.len = a.len ∧
        e.scope = a.scope)
      (∀ r ∈ x.replicas, ∀ i ∈ r.reads, s.awaited i = false) →
      ∃ t, exec (.globalUnsealRequest d n) s = .next t ∧ Confirms s t d a 0 ∧ ExposesAsk s t a ∧
        (t.die d).gseals = x.gseals.eraseP gone ∧
        ∀ r, r ∈ (t.die d).replicas ↔ r ∈ x.replicas ∧ ∃ e ∈ (t.die d).gseals, e.scope = 5 ∧ e.vf = r.vf ∧
          e.asid = r.asid ∧ e.addr ≤ r.va ∧ r.va + r.unit ≤ e.addr + e.len)) ∧
  (∀ (s : State) (d pa target : Nat) (e : GSeal) (va : Nat) (u : Xlated),
    let x := s.die d
    let y := s.stop d (stopOfPa pa)
    d ≤ 3 → target ≠ d → target ≤ 3 → x.sealedUnit pa = some (e, va, u) →
    (∀ r ∈ x.replicas, ¬(r.pa = pa ∧ r.target = target)) → (∀ r ∈ y.inq, r.pa = pa → r.kind = 0) →
    (∀ f ∈ y.folds, ¬(f.key.1 = pa ∧ f.copy = some target)) → y.folds.length < 256 →
    u.leaf.sealok = true ∧ e.scope = 5 ∧ e.addr ≤ va ∧ va + u.unit ≤ e.addr + e.len ∧
    ∃ t f, exec (.replicaCopy d pa target) s = .next t ∧ (t.stop d (stopOfPa pa)).folds = y.folds ++ [f] ∧
      f.key = (pa, e.vf) ∧ f.tags = [] ∧ f.closed = true ∧ f.copy = some target ∧
      f.poisoned = (y.recorded pa u.unit || x.quarantined u.leaf pa) ∧ (f.req.pa, f.req.vf, f.req.leaf, f.req.unit) =
        (pa, e.vf, u.leaf, u.unit) ∧ ∀ k, memoryOf t k = memoryOf s k) ∧
  (∀ (s : State) (n : Nat) (h : HostReq), (s.hostReqs.find? fun g => decide (g.req.id = n)) = some h →
    (∀ g ∈ s.hostReqs.takeWhile (fun g => decide (g.req.id ≠ n)), g.addr / 64 ≠ h.addr / 64) →
    let r := h.req
    let left := s.hostReqs.filter fun g => decide (g.req.id ≠ n)
    let landed (t : State) : Prop :=
      t.fly.map unparted = (s.fly.filter fun f => decide (f.id ≠ n)).map unparted
    let put (t : State) (l : List Byte) : Prop := ∀ a, t.hostByte a =
      if h.addr ≤ a ∧ a < h.addr + l.length then l.getD (a - h.addr) 0 else s.hostByte a
    (r.kind = 0 → ∀ poison, ∃ t, exec (.hostReadCompletion n poison) s = .next t ∧ t.hostReqs = left ∧
      (∀ a, t.hostByte a = s.hostByte a) ∧
      ∀ m pos len a, cmdAt s r.core r.seq = some m → m.stopped = false → m.gathers = false → m.op ≠ 6 →
        (m.pend.find? fun p => decide (p.1 = n)) = some (n, pos, len, a) → r.va / 64 * 64 ≤ a →
        a + len ≤ r.va / 64 * 64 + 64 → poison = false → tget false s.hostPoison (h.addr / 64) = false →
        r.leaf.quar = false →
        ∃ y, cmdAt t r.core r.seq = some y ∧ y.outbox = m.outbox ++ [(pos, (List.range len).map fun i =>
          s.hostByte (h.addr / 64 * 64 + (a - r.va / 64 * 64) + i), false, false)]) ∧
    (r.kind = 1 ∨ r.kind = 2 → (∃ f ∈ s.fly, f.id = n ∧ f.off = true) →
      ∃ t, exec (.hostWriteCompletion n) s = .next t ∧ t.hostReqs = left ∧ put t [] ∧ landed t) ∧
    (r.kind = 1 → (∀ f ∈ s.fly, f.id = n → f.off = false) →
      ∃ t, exec (.hostWriteCompletion n) s = .next t ∧ t.hostReqs = left ∧ landed t ∧
        (r.leaf.quar = true → put t []) ∧ (r.leaf.quar = false → put t r.data ∧
          (r.poison = true → tget false t.hostPoison (h.addr / 64) = true))) ∧
    (r.kind = 2 → (∀ f ∈ s.fly, f.id = n → f.off = false) → r.leaf.quar = false → r.op < 12 → r.len = 4 ∨ r.len = 8 ∧ r.op ≠ 11 →
      h.addr % 64 + r.len ≤ 64 →
      tget false s.hostPoison (h.addr / 64) = false →
      let old := ((List.range r.len).map fun i => (s.hostByte (h.addr + i)).toNat * 256 ^ i).sum
      ∃ t, exec (.hostWriteCompletion n) s = .next t ∧ t.hostReqs = left ∧ landed t ∧
        put t (bytesOf (engineAtomic r.op r.len old r.x.toNat r.n.toNat) r.len))) ∧
  ∀ (s : State) (c : Nat),
    let x := s.core c
    (∀ asid block kb, (x.blocks.find? fun (kb : Nat × Block) => decide (kb.2.asid = asid)) = some kb →
      s.fixlat = false → x.codeFor asid (64 * block) = none → block < 2 ^ 50 →
      (∀ f ∈ x.fetches, f.asid = asid → f.block = block → f.dropped = true) →
      ∃ t, exec (.instructionFetch c asid block) s = .next t ∧ (t.core c).fetches =
        x.fetches ++ [{ id := s.uidSeq, vf := kb.2.vf, asid, block }]) ∧
    ∀ n f, (x.fetches.find? fun f => decide (f.id = n)) = some f →
      let o := exec (.fetchReturn c n) s
      let back (k : Code) (t : State) : Prop :=
        (t.core c).fetches = (x.fetches.filter fun g => decide (g.id ≠ n)) ∧
          (t.core c).code = if f.dropped = true ∨ (x.codeFor f.asid (64 * f.block)).isSome = true then x.code
            else x.code ++ [k]
      (∀ k, f.got = some k → ∃ t, o = .next t ∧ back k t) ∧
      (f.got = none → (∀ b, s.blockAt f.asid f.vf (64 * f.block) = some b → s.halfWritten b = false) →
        s.unperformed f.asid f.vf (64 * f.block) = false → s.unperformed f.asid f.vf (64 * f.block + 32) = false →
        ∃ t k, o = .next t ∧ k.asid = f.asid ∧ k.block = f.block ∧
          (match (s.readBytes c f.asid f.vf 3 (64 * f.block) 64).1 with
          | .ok (l, false) => k.bytes = l ∧ k.fail = 0
          | .ok (_, true) => k.fail = 1
          | .error e => k.fail = if e = bsNONRES then 9 else 8) ∧
          (back k t ∨ (t.core c).code = x.code ∧ (t.core c).fetches = x.fetches.map fun g =>
            if g.id = n then { g with got := some k } else g))

/-- The mesh and the fabric (R237, R284, R317 to R328, R392 to R403): an output port grants by reservation, promotion
or weighted round-robin and the head leaves; what leaves the mesh arrives at its cluster, stop or link hub in the
next cycle; due heads are promoted; MESHARB and slot tables change at slot index 0; links train, carry authentic
frames, renew keys and go down; packets in a hub go on by a link, through the mesh, or to this rank; whole
contributions combine at the root and answer their contributors packet by packet; one that comes after the watchdog
of its entry opens a new one; watchdogs end what takes too long; and RCOPY units are written and acknowledged.
Model's choices: the launch of a combiner entry and the units of RCOPY (log entries 47 and 48); the room of a link,
the hub entry that a packet takes, the place of the controller and the packets of stolen tasks (log entry 71). -/
def Obligations.MeshAndFabric : Prop :=
  (∀ (s : State) (d r q : Nat), MayGrant s d r q → ((s.die d).port r q).cur < 2 →
    let x := s.die d
    let p := x.port r q
    let l := s.waiting d r q
    let e := tget 0 p.slots x.slotIndex
    let granted (among : Head → Prop) (also : Head → State → Prop) : Prop := ∃ h ∈ l, among h ∧
      (∀ k ∈ l, among k → k.slot.pkt.cls = h.slot.pkt.cls → turnOf p h ≤ turnOf p k) ∧
      ∃ t, exec (.outputPortGrant d r q) s = .next t ∧ Left s t d r q h ∧ also h t
    let keeps (t : State) : Prop := ((t.die d).port r q).cur = p.cur ∧ ((t.die d).port r q).n = p.n
    let due (h : Head) : Prop := max 1 (x.mesharb.toNat / 2 ^ 16 % 256) ≤ tget 0 h.slot.ages q
    p.deferred = [] →
    (e / 2 ^ 15 % 2 = 1 →
      let among (h : Head) : Prop := h.slot.pkt.part = e % 128 ∧ (e / 2 ^ 13 % 4 = 0 ∨
        e / 2 ^ 13 % 4 = 1 ∧ h.slot.pkt.cls = 0 ∨ e / 2 ^ 13 % 4 = 2 ∧ h.slot.pkt.cls = 1)
      (∃ h ∈ l, among h) → granted among fun h t => keeps t ∧
        (∀ k ∈ l, among k → h.slot.pkt.cls ≤ k.slot.pkt.cls) ∧
        ((t.die d).port r q).txres = p.txres + 1) ∧
    (e / 2 ^ 15 % 2 = 0 → x.isPurging r = false →
      (l = [] → ∃ t, exec (.outputPortGrant d r q) s = .next t ∧ keeps t ∧ (t.die d).bufs = x.bufs) ∧
      ((∃ h ∈ l, due h) →
        let among (h : Head) : Prop := due h ∧ ∀ k ∈ l, tget 0 k.slot.ages q ≤ tget 0 h.slot.ages q
        granted among fun h t => keeps t ∧ (∀ k ∈ l, among k → h.slot.pkt.cls ≤ k.slot.pkt.cls) ∧
          ((t.die d).port r q).promo = p.promo + 1) ∧
      (l ≠ [] → (∀ h ∈ l, ¬ due h) →
        let w := servedClass x p (l.any fun h => h.slot.pkt.cls == 0) (l.any fun h => h.slot.pkt.cls == 1)
        granted (fun h => h.slot.pkt.cls = w.1) fun _ t =>
          ((t.die d).port r q).cur = w.1 ∧ ((t.die d).port r q).n = w.2))) ∧
  (∀ (s : State) (d r q k : Nat), r < 16 → q < 5 → k < 40 → ((s.die d).port r q).nextAt ≤ s.now →
    ((s.die d).port r q).body = some k → ∃ t, exec (.outputPortGrant d r q) s = .next t ∧
      ((t.die d).port r q).body = none ∧ ((t.die d).port r q).nextAt = s.now + 1 ∧
      ((t.die d).buf r (k / 8) (k % 8)).map (·.pkt) = ((s.die d).buf r (k / 8) (k % 8)).tail.map (·.pkt) ∧
      (q = pLocal → ∀ sl rest, (s.die d).buf r (k / 8) (k % 8) = sl :: rest →
        (t.die d).leaving = (s.die d).leaving ++ [(8 * r + q,
          { sl.pkt with dests := sl.pkt.dests.filter fun x => decide (portFor d r sl.pkt x = q) })])) ∧
  (∀ (s : State) (d r q : Nat) (p : Packet), d < 4 → q < 8 → (s.die d).leaving = [(8 * r + q, p)] →
    let t := s.land d
    (t.die d).leaving = [] ∧
    match leadsTo r q, p.payload with
    | .stop n, .req a => if (s.fn p.part).resetting = true then (t.stop d n).inq = (s.stop d n).inq else
        (t.stop d n).inq = (s.stop d n).inq ++ [{ a with
          arrived := s.now
          quar := (s.die d).quarantined a.leaf a.pa ||
            a.home.elim false fun x => (s.die x.1).quarantined a.leaf x.2
          recorded := (s.stop d n).recorded a.pa a.unit ||
            a.home.elim false fun x => (s.stop x.1 (stopOfPa x.2)).recorded x.2 a.unit }] ∧
          (t.stop d n).freq = (s.stop d n).freq + (if a.kind = 0 ∧ p.part ≠ 127 then 1 else 0) ∧
          (t.stop d n).fwrt = (s.stop d n).fwrt + if a.kind = 0 ∨ p.part = 127 then 0 else 1
    | .stop _, .fab f => t.fabric = s.fabric ++ [{ f with hub := d, mesh := true }]
    | .cluster, .msg m => if m.kind = 2 then (t.core m.target).nacks = (s.core m.target).nacks ++ [m]
        else (t.core m.target).landing = (s.core m.target).landing ++ [m]
    | .cluster, .ask a lift => if lift = true then (t.die d).unsealReqs = (s.die d).unsealReqs ++ [a]
        else (t.die d).sealReqs = (s.die d).sealReqs ++ [a]
    | .cluster, .confirm a w => Answered s t a w
    | .cluster, .fab f => t.results = s.results ++ [f]
    | .cluster, .task (.record k e) => if (s.core k).gated = true then (t.core k).stolen = (s.core k).stolen else
        (t.core k).stolen = (s.core k).stolen ++ [e] ∧ (t.core k).outTasks = (s.core k).outTasks ++ [.ack k e]
    | .cluster, .task (.ack k e) => (t.core e.victim).acks = (s.core e.victim).acks ++ [(k, e)]
    | .cluster, .task (.nack k e) => (t.core k).stolen = (s.core k).stolen.filter fun x => decide (x.lease ≠ e.lease)
    | .cluster, .task (.report k i gen code _) => t.reports = s.reports ++ [(k, i, gen, code)]
    | _, _ => True) ∧
  (∀ (s : State) (d r i c q : Nat) (sl : Slot) (rest : List Slot), (s.die d).buf r i c = sl :: rest → q ∈ sl.todo →
    max 1 ((s.die d).mesharb.toNat / 2 ^ 16 % 256) ≤ tget 0 sl.ages q → q ∉ sl.promoted →
    ∃ t y, exec (.headPromotion d r i c) s = .next t ∧ (t.die d).buf r i c = y :: rest ∧ q ∈ y.promoted ∧
      y.pkt = sl.pkt ∧ y.todo = sl.todo) ∧
  (∀ (s : State) (d v : Nat),
    let x := s.die d
    (∃ t, exec (.mesharbWrite d v) s = .next t ∧ (t.die d).mesharb = x.mesharb ∧
      (t.die d).mesharbNew = some (BitVec.ofNat 32 (v / 2 ^ 16 % 256 * 2 ^ 16 + v % 256))) ∧
    (∀ w, x.slotIndex = 0 → x.mesharbNew = some w → ∃ t, exec (.mesharbApply d) s = .next t ∧
      (t.die d).mesharb = w ∧ (t.die d).mesharbNew = none) ∧
    (v / 2 ^ 31 % 2 = 1 → ∃ t, exec (.slotcmd d v) s = .next t ∧
      (t.die d).slotcmd = BitVec.ofNat 32 (2 ^ 31 + v / 16 % 16 * 16 + v % 8)) ∧
    (v / 2 ^ 31 % 2 = 0 → ∃ t, exec (.slotcmd d v) s = .next t ∧ (t.die d).slotcmd.toNat % 256 =
      v / 16 % 16 * 16 + v % 8 ∧ (t.die d).slotcmd.toNat / 2 ^ 28 = x.slotcmd.toNat / 2 ^ 28) ∧
    (x.slotIndex = 0 → x.slotcmd.getLsbD 31 = true →
      let r := x.slotcmd.toNat / 16 % 16
      let q := x.slotcmd.toNat % 8
      let valid (i : Nat) : Prop := tget 0 x.staging i / 2 ^ 15 % 2 = 1
      let refused (i : Nat) : Prop := valid i ∧ (tget 0 x.staging i / 2 ^ 13 % 4 = 3 ∨
        tget 0 x.staging i / 2 ^ 7 % 64 ≠ 0 ∨ 64 ≤ tget 0 x.staging i % 128 ∧ tget 0 x.staging i % 128 ≤ 126)
      let count := ((List.range 64).filter fun i => decide (tget 0 x.staging i / 2 ^ 15 % 2 = 1)).length
      ∃ t, exec (.slotTableReplace d) s = .next t ∧ (t.die d).slotcmd.getLsbD 31 = false ∧
        let res := (t.die d).slotcmd.toNat / 2 ^ 28 % 8
        let table (y : Die) : Tbl Nat := (y.port r q).slots
        (4 < q → res = 3 ∧ (t.die d).ports = x.ports) ∧
        (q ≤ 4 → (∃ i, i < 64 ∧ refused i) → res = 2 ∧ (t.die d).ports = x.ports) ∧
        (q ≤ 4 → (¬ ∃ i, i < 64 ∧ refused i) → 48 < count → res = 1 ∧ (t.die d).ports = x.ports) ∧
        (q ≤ 4 → (¬ ∃ i, i < 64 ∧ refused i) → count ≤ 48 → res = 0 ∧ table (t.die d) = x.staging))) ∧
  (∀ (s : State) (n v : Nat),
    let l := s.link n
    let drops (o : Out) (state : Nat) : Prop := ∃ t, o = .next t ∧ (t.link n).state = state ∧
      (t.link n).inbound = [] ∧ (t.link n).outbound = [] ∧ (t.link n).resend = [] ∧
      ∀ p, p ∈ l.outbound ∨ (∃ f ∈ l.resend ++ l.inbound, p ∈ f.pkts) →
        p.kind = 0 ∨ p.kind = 3 → { answerTo p bsERROR with hub := linkDie n } ∈ t.fabric
    (n < 18 → v / 2 ^ 31 % 2 = 1 → drops (exec (.linkRetrain n v) s) 1) ∧
    (v / 2 ^ 31 % 2 = 0 → exec (.linkRetrain n v) s = .next s) ∧
    (l.state = 2 → 8 ≤ l.fails ∨ 8 ≤ l.txFails → drops (exec (.linkDown n) s) 0) ∧
    (l.state = 2 → ∃ t, exec (.keyRenewal n) s = .next t ∧ (t.link n).keyGen = l.keyGen + 1 ∧
      (t.link n).rxCount = 0 ∧ (t.link n).txCount = l.resend.length ∧
      (t.link n).resend.map (·.pkts) = l.resend.map (·.pkts) ∧
      (t.link n).inbound.map (·.pkts) = l.inbound.map (·.pkts)) ∧
    (l.state = 1 → ∀ trip keys, ∃ t, exec (.linkTrained n trip keys) s = .next t ∧
      (t.link n).state = if trip ≤ 48 ∧ keys = true then 2 else 0) ∧
    ∀ f rest, l.inbound = f :: rest → l.state = 2 → l.fails < 8 → l.rxCount < 2 ^ 48 →
      let pass := f.count = l.rxCount ∧ (f.text, f.tag) = Config.gcm (Config.linkKey n l.keyGen false)
        (Config.linkSalt n l.keyGen false ++ BitVec.ofNat 64 l.rxCount) f.pkts
      (pass → ∃ t, exec (.linkFrameArrival n true) s = .next t ∧ t.fabric = s.fabric ++
          (f.pkts.map fun p => { p with link := n, hub := linkDie n, mesh := false }) ∧
        (t.link n).inbound = rest ∧ (t.link n).rxCount = l.rxCount + 1 ∧ (t.link n).fails = 0) ∧
      ∀ good, good = false ∨ ¬ pass → ∃ t, exec (.linkFrameArrival n good) s = .next t ∧ t.fabric = s.fabric ∧
        (t.link n).inbound = l.inbound ∧ (t.link n).fails = l.fails + 1 ∧ (t.link n).retry = true) ∧
  (∀ (s : State) (i : Nat) (p : FabPkt), s.fabric[i]? = some p →
    (∀ q ∈ s.fabric.take i, ¬(q.hub = p.hub ∧ q.mesh = p.mesh ∧ q.link = p.link ∧ q.linkVc = p.linkVc)) →
    s.fixlat = false →
    let o := exec (.fabricForward i) s
    let rest := s.fabric.eraseIdx i
    let asks := p.kind = 0 ∨ p.kind = 3
    let refused := ∃ t, o = .next t ∧ t.fabric = rest ∧ (asks → p.link < 18 →
      (t.link p.link).outbound = (s.link p.link).outbound ++ [answerTo p bsERROR])
    (s.tableOf p.key = none → refused) ∧
    ∀ vf g, s.tableOf p.key = some (vf, g) →
      (p.dst = g.rank → (s.jobOf p.key = none → refused) ∧ ∀ l, s.jobOf p.key = some l →
        (p.kind = 0 → s.entryFor (p.key, p.words.getD 3 0) = true →
          ∃ t, o = .next t ∧ t.fabric = rest ∧ t.contribs = s.contribs ++ [p]) ∧
        (p.kind = 0 → s.entryFor (p.key, p.words.getD 3 0) = false → Held s o) ∧
        (p.kind = 3 → ∃ t, o = .next t ∧ t.fabric = rest ∧ t.rcopies = s.rcopies ++ [p]) ∧
        (¬ asks →
          let x := fabPacket ((cmdAt s p.core p.seq).elim l.vf (·.vf)) p
          let router := if p.core / 4 % 16 % 4 < 2 then 12 else 15
          HubFree s p router x → ∃ t, o = .next t ∧ t.fabric = rest ∧ FromHub s t p router x)) ∧
      (p.dst ≠ g.rank →
        (∀ n, g.linkTo p.dst = some n → (s.link n).state = 2 →
          (linkDie n = p.hub → ((s.link n).outbound.filter fun q => decide (q.linkVc = p.linkVc)).length < 4 →
            ∃ t, o = .next t ∧ t.fabric = rest ∧ (t.link n).outbound = (s.link n).outbound ++ [p]) ∧
          (linkDie n ≠ p.hub →
            let x := hubPacket vf (linkDie n) 0 p
            HubFree s p 12 x → ∃ t, o = .next t ∧ t.fabric = rest ∧ FromHub s t p 12 x)) ∧
        ((∀ n, g.linkTo p.dst = some n → (s.link n).state ≠ 2) →
          ∃ t, o = .next t ∧ (asks → t.fabric = rest ++ [answerTo p bsERROR]) ∧ (¬ asks → t.fabric = rest)))) ∧
  (∀ (s : State) (i : Nat) (p : FabPkt), s.contribs[i]? = some p →
    let o := exec (.contributionArrival i) s
    (p.data.length = p.size → s.wholeContribution i p = some (p, { s with contribs := s.contribs.eraseIdx i })) ∧
    (s.wholeContribution i p = none → Held s o) ∧
    ∀ c u, s.wholeContribution i p = some (c, u) →
      let w (k : Nat) : Word := c.words.getD k 0
      let data : List Word := (List.range (w 0).toNat).map fun k =>
        BitVec.ofNat 32 (((List.range 4).map fun j => (c.data.getD (4 * k + j) 0).toNat * 256 ^ j).sum)
      let found := s.combiner.find? fun e => decide (e.key = c.key ∧ e.tag = w 3)
      let opens (also : State → Prop) : Prop := 1 < (w 1).toNat → (c.op = 7 ∨ c.op = 8 ∨ c.op = 9) →
        ∃ t e, o = .next t ∧ t.contribs = u.contribs ∧ e ∈ t.combiner ∧ e.key = c.key ∧ e.tag = w 3 ∧
          e.parts = [c] ∧ e.firstAt = s.now ∧ (c.op ≠ 9 ∨ c.src = c.dst → e.acc = data) ∧ also t
      c.data.length = p.size ∧
      (found = none → s.combiner.length < 256 → opens fun _ => True) ∧
      ∀ e, found = some e →
        (e.firstAt + s.watchdog e.launch ≤ s.now → opens fun t => (∀ q ∈ e.parts, answerTo q bsTIMEOUT ∈ t.fabric) ∧
          ∀ y ∈ t.combiner, y.num = e.num → y.parts = [c]) ∧
        (s.now < e.firstAt + s.watchdog e.launch →
          (e.rejects c = true → ∃ t, o = .next t ∧ t.combiner = s.combiner ∧ t.contribs = u.contribs ∧
            t.fabric = s.fabric ++ [answerTo c bsERROR]) ∧
          (e.rejects c = false → e.parts ≠ [] → e.parts.length + 1 ≠ e.w10.toNat →
            ∃ t x, o = .next t ∧ x ∈ t.combiner ∧ x.num = e.num ∧ x.parts = e.parts ++ [c] ∧
              (e.op ≠ 9 → x.acc = List.zipWith (combineWord (combineForm e.w11) (e.w11.toNat % 16)) e.acc
                ((List.range e.w1.toNat).map fun k => wordAt c.data k))) ∧
          (e.rejects c = false → e.parts ≠ [] → e.parts.length + 1 = e.w10.toNat → e.op = 8 →
            let bytes := (List.zipWith (combineWord (combineForm e.w11) (e.w11.toNat % 16)) e.acc
              ((List.range e.w1.toNat).map fun k => wordAt c.data k)).flatMap fun v => bytesOf v.toNat 4
            ∃ t, o = .next t ∧ (∀ x ∈ t.combiner, x.num ≠ e.num) ∧ ∀ q, q ∈ e.parts ∨ q = c →
              ∀ k, k < max 1 ((bytes.length + 255) / 256) →
                ∃ a ∈ t.fabric, a.kind = 1 ∧ a.dst = q.src ∧ a.core = q.core ∧ a.seq = q.seq ∧ a.hub = q.hub ∧
                  a.size = bytes.length ∧ a.off = 256 * k ∧ a.data = (bytes.drop (256 * k)).take 256))) ∧
  (∀ (s : State) (i : Nat) (p : FabPkt) (m : Cmd), s.results[i]? = some p → cmdAt s p.core p.seq = some m →
    let o := exec (.resultArrival i) s
    let left := s.results.eraseIdx i
    (p.kind = 4 → ∃ t, o = .next t ∧ t.results = left ∧
      cmdAt t p.core p.seq = some { m with sub := m.sub - 1, status := m.status ||| p.status }) ∧
    (p.kind ≠ 4 → m.phase = 1 → s.expired m = false → ∃ t y, o = .next t ∧ t.results = left ∧
      cmdAt t p.core p.seq = some y ∧ y.phase = 2 ∧ y.status = m.status ||| p.status ∧
      (p.kind = 1 → y.due = p.size - p.data.length ∧
        (p.data.length = p.size → p.off = 0 → p.bad = [] → y.outbox = [(0, p.data, false, false)]))) ∧
    (p.kind ≠ 4 → m.phase = 1 → s.expired m = true →
      ∃ t, o = .next t ∧ t.results = left ∧ t.cores = s.cores)) ∧
  (∀ (s : State) (c : Nat) (m : Cmd), cmdAt s c m.seq = some m → s.expired m = true → m.phase < 2 →
    (∀ kg ∈ (s.core c).groups, kg.2.ended = false) →
    ∃ t, exec (.contributorTimeout c m.seq) s = .next t ∧
      (t.core c).cmds = ((s.core c).cmds.filter fun y => decide (y.seq ≠ m.seq)) ∧
      (∀ x a, t.spadByte x a = s.spadByte x a) ∧
      ∀ y i b, s.group? c m.slot = some y → y.uid = m.uid → m.batch = some i → tfind? y.cmds.batches i = some b →
        ∃ z, t.group? c m.slot = some z ∧ tfind? z.cmds.batches i =
          some { b with open_ := b.open_ - 1, status := b.status ||| (m.status ||| bsTIMEOUT) }) ∧
  (∀ (s : State) (e : Combine), (s.combiner.find? fun x => decide (x.num = e.num)) = some e →
    e.firstAt + s.watchdog e.launch ≤ s.now → ∃ t, exec (.combinerTimeout e.num) s = .next t ∧
      t.combiner = s.combiner.filter (fun x => decide (x.num ≠ e.num)) ∧
      ∀ p ∈ e.parts, answerTo p bsTIMEOUT ∈ t.fabric) ∧
  ∀ (s : State) (i : Nat) (p : FabPkt), s.rcopies[i]? = some p →
    let o := exec (.rcopyUnitArrival i) s
    let rest := s.rcopies.eraseIdx i
    (s.jobOf p.key = none → ∃ t, o = .next t ∧ t.rcopies = rest ∧ (p.kind = 3 → p.link < 18 →
      (t.link p.link).outbound = (s.link p.link).outbound ++ [answerTo p bsERROR])) ∧
    (∀ l, s.jobOf p.key = some l → 5 ≤ p.va / 2 ^ 53 % 8 → ∃ t, o = .next t ∧ t.rcopies = rest ∧
      t.fabric = s.fabric ++ [answerTo p bsERROR]) ∧
    (∀ l u, s.jobOf p.key = some l → p.va / 2 ^ 53 % 8 ≤ 3 → p.poison = false → p.data ≠ [] →
      ((s.die (reqDie p.va)).look l.asid l.vf p.va 1).1 = .ok u → p.va % u.unit = 0 → p.data.length = u.unit →
      s.stopBusy (reqDie p.va) u.pa = false → (s.die (reqDie p.va)).quarantined u.leaf u.pa = false →
      (∀ e ∈ (s.die (reqDie p.va)).gseals, e.vf = l.vf → p.va < e.addr + e.len → p.va + p.data.length ≤ e.addr) →
      let n := stopOfPa u.pa
      ∃ t, o = .next t ∧ t.rcopies = rest ∧ t.fabric = s.fabric ++ [answerTo p 0] ∧
        (t.stop (reqDie p.va) n).fwrt = (s.stop (reqDie p.va) n).fwrt + 1 ∧
        memoryOf t (reqDie p.va) = (let x := (s.die (reqDie p.va)).writeUnit u.leaf l.vf u.pa p.data
          (x.hbm, x.side)))

/-- Fairness, the block barrier, launches and power (R146, R150, R151, R214, R372, R375, R376, R382, R386): a starved
split becomes due, the oldest splits exchange places and issue 4 cycles later, a barrier releases its splits and opens an interval; a
doorbell stores its count or stops its queue; a record becomes a launch or is refused; gangs are placed on
their cores; a launch ends with its event; and power states change. The checks of a launch record follow log
entry 49, and a doorbell while ENABLE is 0 log entry 75. -/
def Obligations.SchedulingAndLaunches : Prop :=
  (∀ (s : State) (c g : Nat) (y : Group), s.group? c g = some y →
    (∀ id p, y.splits.find? (y.issues id) = some p → Starved y p →
      ((∀ r ∈ y.splits, r.id ≠ p.id → r.place < 64 → ¬ reserves y r) → ∃ t z,
        exec (.fairnessDue c g id) s = .next t ∧ t.group? c g = some z ∧
          z.splits = y.splits.map fun q => if y.issues id q then { q with due := true, grace := 0 } else q) ∧
      (64 ≤ p.grace → ∃ t z, exec (.reservationGraceEnd c g id) s = .next t ∧ t.group? c g = some z ∧
        z.splits = y.splits.map fun q => if y.issues id q then { q with due := true, grace := 0 } else q)) ∧
    ∀ r d, s.swapPair c g y = some (r, d) →
      let swapped (o : Out) : Prop := ∃ t z, o = .next t ∧ t.group? c g = some z ∧ z.padTimer = y.padTimer ∧
        z.padDue = false ∧ (64 ≤ d.place → z.stat = y.stat ||| 8) ∧
        z.splits.map (fun q => (q.id, q.handler, q.place, q.readyAt)) = y.splits.map fun q =>
          if q.id = d.id ∧ q.handler = d.handler then (q.id, q.handler, r.place, max q.readyAt (s.now + 4))
          else if q.id = r.id ∧ q.handler = r.handler then (q.id, q.handler, d.place, max q.readyAt (s.now + 4))
          else (q.id, q.handler, q.place, q.readyAt)
      (¬ reserves y r → swapped (exec (.paddockSwap c g) s)) ∧
      (∀ p, y.splits.find? (y.issues r.id) = some p → p.place < 64 ∧ p.idle < 256 → reserves y r → 64 ≤ y.padGrace →
        swapped (exec (.reservationGraceEnd c g r.id) s))) ∧
  (∀ (s : State) (c b : Nat),
    let x := s.core c
    (∃ kg ∈ x.groups, kg.2.block = b ∧ kg.2.ended = false) →
    (∀ kg ∈ x.groups, kg.2.block = b → kg.2.q.stores = [] ∧ kg.2.q.loads = [] ∧ (kg.2.ended = false → kg.2.arrived = true)) →
    (∀ m ∈ x.cmds, m.block = b → m.writesOwn x b c = false) →
    (∀ kb ∈ x.blocks, kb.1 = b → kb.2.rolling = none) →
    ∃ t, exec (.barrierRelease c b) s = .next t ∧
      (∀ g y p, s.group? c g = some y → y.block = b → y.ended = false → y.splits = [p] → p.wait = 2 →
        ∃ z q, t.group? c g = some z ∧ z.splits = [q] ∧ q.wait = 0 ∧ q.readyAt = s.now + 1 ∧ q.pc = p.pc ∧
          q.exec = p.exec ∧ z.regs = y.regs) ∧
      ∀ k, s.block? c b = some k → ∃ z, t.block? c b = some z ∧ z.interval = k.interval + 1 ∧
        z.exposed = false ∧ z.dbl = false ∧
        ((∀ kg ∈ x.groups, ∀ p ∈ kg.2.splits, p.place < 64) → z.jrecs = [])) ∧
  (∀ (s : State) (f q v : Nat), f ≤ 64 → q < 16 → (s.fn f).resetting = false →
    let u := (s.fn f).queue q
    ∃ t, exec (.qwpDoorbell f q v) s = .next t ∧ ((t.fn f).queue q).qwp = BitVec.ofNat 32 v ∧
      ((t.fn f).queue q).qrp = u.qrp ∧
      if 2 ^ u.size < (BitVec.ofNat 32 v - u.qrp).toNat then
        ((t.fn f).queue q).enable = false ∧ ((t.fn f).queue q).qerr = true ∧ EventFor s t f 8 q
      else ((t.fn f).queue q).enable = u.enable ∧ ((t.fn f).queue q).qerr = u.qerr) ∧
  (∀ (s : State) (f q : Nat), f ≤ 64 → q < 16 → (s.fn f).resetting = false → s.ckptHolds f = false →
    let u := (s.fn f).queue q
    let r := nextRecord s f q
    let w (i : Nat) : Word := recWord r i
    let bad := s.badWords f r (s.objects.find? fun o =>
      decide (o.asid = (w 1).toNat % 256 ∧ o.addr = (w 3 ++ w 2 : DWord).toNat))
    u.enable = true → u.qwp ≠ u.qrp → s.trust.halted = false ∨ f = 64 → (∀ v, s.launchVf f ((w 1).toNat % 256) = some v → s.ckptHolds v = false) →
    ∃ t, exec (.launchTake f q) s = .next t ∧
      ((t.fn f).queue q).qrp = u.qrp + 1 ∧
      (∀ i rest, bad = i :: rest → t.launches = s.launches ∧ EventFor s t f 3 i) ∧
      (bad = [] → w 8 = 0 → w 9 = 0 → (w 0).getLsbD 11 = false → ∃ l, t.launches = s.launches ++ [l] ∧
        l.fn = f ∧ l.priv = decide (f = 64) ∧ l.asid = (w 1).toNat % 256 ∧ l.lid = w 11 ∧ l.prog = (w 4).toNat ∧
        l.gangs = (w 7).toNat ∧ l.nextGang = 0 ∧ l.endGang = (w 7).toNat ∧ l.prio = (w 0).toNat / 2 ^ 8 % 4 ∧
        l.preds = [w 12, w 13, w 14, w 15] ∧ l.start = (List.range 16).map fun i => w (32 + i)) ∧
      (bad = [] → w 8 = 0 → w 9 = 0 → (w 0).getLsbD 11 = true → f < 64 → (s.fn f).ide = false →
        t.launches = s.launches ∧ EventFor s t f 3 0x80)) ∧
  (∀ (s : State) (l : Launch) (k : Nat) (cores : List Nat), s.launch? l.id = some l → s.wantsPlace l = true →
    (∀ m ∈ s.launches, (l.prio < m.prio ∨ l.prio = m.prio ∧ m.id < l.id) → s.wantsPlace m = true →
      s.gangSpot m = none) →
    s.gangSpot l = some (k, cores) → (s.placeBlocks l cores.length cores 0).isSome = true →
    ∃ t, exec (.gangPlacement l.id) s = .next t ∧ t.lastCluster = some k ∧
      t.launch? l.id = some { l with nextGang := l.nextGang + 1 } ∧
      ∀ b c, cores[b]? = some c → ∃ slot x, t.block? c slot = some x ∧ x.blockId = b ∧ x.gang = l.nextGang ∧
        x.gangSize = cores.length ∧ x.launch = l.id ∧ x.vf = l.vf ∧ x.asid = l.asid ∧ x.size = allocSize l.spad) ∧
  (∀ (s : State) (l : Launch), s.launch? l.id = some l → s.ready l = true → l.endGang ≤ l.nextGang →
    s.launchBusy l.id = false → ∃ t, exec (.launchEnd l.id) s = .next t ∧
      t.launches = s.launches.filter (fun m => decide (m.id ≠ l.id)) ∧
      (l.jobrec = true → t.trust.jobs = s.trust.jobs + 1) ∧
      (l.jobrec = false → match l.fault with
        | none => EventFor s t l.fn 1 0
        | some r => EventFor s t l.fn 2 r.cause)) ∧
  ∀ (s : State) (c : Nat) (on : Bool),
    (s.d3hot = false → (s.core c).gated = false → (s.core c).groups = [] → (s.core c).emptyAt + 10000 ≤ s.now →
      ∃ t, exec (.corePowerGate c) s = .next t ∧ (t.core c).gated = true) ∧
    (s.d3hot ≠ on → exec (.powerStateChange on) s = .next { s with d3hot := on }) ∧
    (s.limiting ≠ on → exec (.modulePowerLimit on) s = .next { s with limiting := on })

/-- What system software writes and reads (R15, R285, R328, R343, R349, R370, R372, R377, R378, R381 to R383, R385, R387): a
write stores the fields of its register and a read-only or unnamed one ignores it; a read delivers them, and 0
for what no table names; containment is cleared;
fixed-latency mode changes on an idle device alone; counters clear; a die's plan changes; and boot, SPDM and
IDE act. Writes of 8 bytes to two registers, the time of 24 hours, a halted boot and the operands of a new
plan follow log entries 58 to 61, and values of QBASE and QSIZE that R372 does not admit log entry 75. -/
def Obligations.HostRegisters : Prop :=
  (∀ (s : State) (f q v : Nat), f < 64 → q < 16 →
    let u := (s.fn f).queue q
    let at_ := 0x1000 + 0x40 * q
    let o (off size v : Nat) : Out := exec (.registerWrite f off size v) s
    let queue (o : Out) (g : LQueue) : Prop := ∃ t, o = .next t ∧ (t.fn f).queue q = g
    (u.enable = false → queue (o (at_ + 8) 4 v) { u with size := v % 32 } ∧
      queue (o at_ 8 v) { u with base := BitVec.ofNat 64 v }) ∧
    (u.enable = true → o (at_ + 8) 4 v = .next s ∧ o at_ 8 v = .next s) ∧
    (s.trust.halted = false → queue (o (at_ + 0x18) 4 v)
      { u with enable := decide (v % 2 = 1), qerr := u.qerr && decide (v / 2 % 2 = 0) }) ∧
    o (at_ + 0x14) 4 v = .next s ∧
    (∃ t, o 0x2000 8 v = .next t ∧ (t.fn f).evbase = BitVec.ofNat 64 v) ∧
    (∃ t, o 0x2014 4 v = .next t ∧ (t.fn f).evrp = BitVec.ofNat 32 v) ∧
    o 0x2024 4 v = .next s ∧
    (∃ t, exec (.registerWrite 64 (0x100000 + 0x10000 * f + 0x2024) 4 v) s = .next t ∧ (t.fn f).poisen = v % 4) ∧
    exec (.containClear f (2 * v)) s = .next s ∧
    (∃ t, exec (.containClear f (2 * v + 1)) s = .next t ∧ (t.fn f).contained = false ∧
      (t.fn f).devloss = false)) ∧
  (∀ (s : State) (d i v : Nat), d < 4 →
    let o (off : Nat) : Out := exec (.registerWrite 64 (0x1000000 * (d + 1) + off) 8 v) s
    (i < 256 → ∃ t, o (0x10000 + 8 * i) = .next t ∧ tget 0 (t.die d).asidT i = BitVec.ofNat 64 v) ∧
    (i < 64 → ∃ t, o (0x11000 + 8 * i) = .next t ∧
      tget 0 (t.die d).seg i = BitVec.ofNat 64 v &&& 0x80FFFFFF00FFFFFF) ∧
    (i < 16 → ∃ t, o (0x1000 + 8 * i) = .next t ∧ ∀ j, j < 4 →
      tget 0 (t.die d).staging (4 * i + j) = v / 2 ^ (16 * j) % 2 ^ 16) ∧
    (i < 64 → exec (.registerWrite 64 (0x3100 + 4 * i) 4 v) s = .next s)) ∧
  (∀ (s : State) (c g v n : Nat) (y : Group), c < 256 → n < 56 → (s.core c).dbgHeld = some g →
    s.group? c g = some y → y.claimed = true →
    ∃ t z, exec (.registerWrite 64 (0x1000000 * (c / 64 + 1) + 0x800000 + 0x10000 * (c % 64) + 0x40 + 4 * n) 4 v) s
      = .next t ∧ t.group? c g = some z ∧ tget 0 z.regs.s n = BitVec.ofNat 32 v ∧ z.splits = y.splits) ∧
  (∀ (s : State) (d v : Nat),
    (s.idle = false → exec (.fixlat d v) s = .next s) ∧
    (s.idle = true → ∃ t, exec (.fixlat d v) s = .next t ∧ t.fixlat = decide (v % 2 = 1) ∧
      (v % 2 = 1 → s.fixlat = false → ∀ kd ∈ t.dies, kd.2.lfsr = []) ∧
      (s.fixlat = decide (v % 2 = 1) → t = s)) ∧
    (¬(v % 2 = 1 ∧ s.fixlat = true) → exec (.clrcnt d v) s = .next s) ∧
    (v % 2 = 1 → s.fixlat = true → ∃ t, exec (.clrcnt d v) s = .next t ∧
      (∀ kt ∈ (t.die d).stops, kt.2.freq = 0 ∧ kt.2.fmrg = 0 ∧ kt.2.ffet = 0 ∧ kt.2.fwrt = 0 ∧ kt.2.cecnt = 0 ∧
        kt.2.uecnt = 0 ∧ kt.2.macf = 0 ∧ kt.2.poisr = 0) ∧
      ∀ kp ∈ (t.die d).ports, kp.2.txlat = 0 ∧ kp.2.txbulk = 0 ∧ kp.2.txres = 0 ∧ kp.2.promo = 0 ∧
        kp.2.stallc = 0 ∧ kp.2.purged = 0) ∧
    (d < 4 → ∃ t, exec (.replan v) s = .next t ∧ ((t.die d).replan = true ↔
      v / 2 ^ d % 2 = 1 ∨ (s.die d).replan = true)) ∧
    (d < 4 → (s.die d).replan = true ∨ (s.die d).planAt + 24 * 3600 * 1400000000 ≤ s.now →
      ∃ t, exec (.periodicReplan d v) s = .next t ∧ (t.die d).replan = false ∧ (t.die d).planAt = s.now ∧
        (s.die d).ageIdx ≤ (t.die d).ageIdx ∧ EventFor s t 64 10 0)) ∧
  (∀ (s : State) (f off n : Nat) (l : List Action), f ≤ 64 → s.script = .env (.regRead f off n) :: l →
    let q := s.fn f
    let u := q.queue (off / 0x40 % 16)
    let x := s.die (off / 0x1000000 - 1)
    let reads (w : Word) : Prop := ∃ t, step s = .next t ∧ t.readReg.setWidth 32 = w ∧ t.cores = s.cores ∧
      t.dies = s.dies ∧ t.fns = s.fns
    (0x1000 ≤ off → off < 0x1400 → (off % 0x40 = 0x08 → reads (BitVec.ofNat 32 u.size)) ∧
      (off % 0x40 = 0x10 → reads u.qwp) ∧ (off % 0x40 = 0x14 → reads u.qrp) ∧
      (off % 0x40 = 0x18 → reads (BitVec.ofNat 32 (u.enable.toNat + 2 * u.qerr.toNat))) ∧
      (off % 0x40 = 0x0C ∨ 0x1C ≤ off % 0x40 → off % 4 = 0 → reads 0)) ∧
    (off = 0x2010 → reads q.evwp) ∧ (off = 0x2014 → reads q.evrp) ∧ (off = 0x2018 → reads 0) ∧
    (f < 64 → off = 0x2020 → reads (BitVec.ofNat 32 (q.contained.toNat + 2 * q.devloss.toNat))) ∧
    (f = 64 → 0x1000000 ≤ off → off < 0x5000000 → (off % 0x1000000 = 0 → reads x.mesharb) ∧
      (off % 0x1000000 = 4 → reads x.slotcmd) ∧
      (off % 0x1000000 = 8 → reads (BitVec.ofNat 32 (x.ageIdx % 256 * 65536 + x.vgb % 256 * 256 + x.fcap % 256))) ∧
      (off % 0x1000000 = 0x20028 → reads (tget {} x.stops 0).macf))) ∧
  ∀ (s : State),
    (s.trust.booted = false → s.trust.halted = false → ∃ t, exec .boot s = .next t ∧
      ((∀ x ∈ s.trust.stages, Config.firmwareGood (Config.sha256 x.1) x.2 = true) → t.trust.booted = true ∧
        t.trust.halted = false ∧ t.trust.log = s.trust.log ++ s.trust.stages.map fun x => Config.sha256 x.1) ∧
      ((∃ x ∈ s.trust.stages, Config.firmwareGood (Config.sha256 x.1) x.2 = false) → t.trust.booted = false ∧
        t.trust.halted = true ∧ ∀ f q, f < 64 → ((t.fn f).queue q).enable = false)) ∧
    (∃ t, exec .spdmGetCertificate s = .next t ∧ t.trust.answer = Config.certificate) ∧
    (∀ nonce, ∃ t sig, exec (.spdmGetMeasurements nonce) s = .next t ∧
      t.trust.answer = s.trust.log.flatten ++ sig ∧ t.trust.log = s.trust.log) ∧
    ∀ f on, f ≤ 64 → ∃ t, exec (.ideKm f on) s = .next t ∧ (t.fn f).ide = on

/-- Context saves, checkpoints, function-level resets and the debugger (R168, R233, R236, R329, R379 to R381,
R388, R389): an operation is ignored while one runs, reports why it could not act, or begins, and operation 0 ends at
once; a checkpoint puts its segments on the tier, with 0xFF for what is poisoned unless that goes with CXL poison, and
a restore puts them back as host memory holds them; a reset discards all that a VF has; and a claimed group is held,
stepped, moved and let go. Model's choices: what a checkpoint holds and where, when an image is accepted, what a
debugger step counts and what an unlisted operation does, what a reset leaves, and that CTXCMD's operation 0 does
nothing (log entries 25, 55, 57, 59, 62 and 75). -/
def Obligations.SavesResetsAndDebugger : Prop :=
  (∀ (s : State) (v : Nat),
    let c := s.ctxCore
    let b := s.ctxSlot
    let go (op : Nat) : Prop := s.pf.ctxcmd.getLsbD 31 = false ∧ v / 2 ^ 31 % 2 = 1 ∧ v / 2 ^ 26 % 4 = op
    let ends (o : Out) (res : Nat) : Prop := ∃ t, o = .next t ∧ ctxResult t = (res, false)
    (s.pf.ctxcmd.getLsbD 31 = true → exec (.ctxSave v) s = .next s ∧ exec (.ctxRestore v) s = .next s ∧
      exec (.ctxDiscard v) s = .next s) ∧
    (go 0 → ends (exec (.ctxSave v) s) 0 ∧ ends (exec (.ctxRestore v) s) 0 ∧ ends (exec (.ctxDiscard v) s) 0) ∧
    (go 1 → s.block? c b = none → ends (exec (.ctxSave v) s) 1) ∧
    (go 3 → s.block? c b = none → ends (exec (.ctxDiscard v) s) 1) ∧
    (∀ k, s.block? c b = some k → k.ended = false →
      (s.ckptHolds k.vf = true → (go 1 → ends (exec (.ctxSave v) s) 6) ∧
        (go 3 → ends (exec (.ctxDiscard v) s) 6)) ∧
      (s.ckptHolds k.vf = false → k.task = none ∨ k.committed = true → go 1 →
        if badArea s.pf.ctxaddr = true then ends (exec (.ctxSave v) s) 2
        else ∃ t z, exec (.ctxSave v) s = .next t ∧ (ctxResult t).2 = true ∧ t.block? c b = some z ∧
          z.preempt = true) ∧
      (s.ckptHolds k.vf = false → k.task = none → go 3 → ∃ t, exec (.ctxDiscard v) s = .next t ∧
        (ctxResult t).2 = true ∧ (∀ g y, s.group? c g = some y → y.block = b → GroupGone t c g y.uid) ∧
        ∀ l, s.launch? k.launch = some l → l.fault = none →
          ((t.launch? k.launch).bind (·.fault)).map (·.cause) = some cPREEMPT)) ∧
    (go 2 → badArea s.pf.ctxaddr = true ∨ s.areaLen < 64 → ends (exec (.ctxRestore v) s) 2) ∧
    (go 2 → badArea s.pf.ctxaddr = false → 64 ≤ s.areaLen →
      let len := imgNat (s.readArea s.pf.ctxaddr 64) 48 8
      let img := s.readArea s.pf.ctxaddr len
      len ≤ s.areaLen → s.ckptHolds (readBlock {} img).vf = false →
      match s.restoreImage c img with
      | .error r => r < 8 → ends (exec (.ctxRestore v) s) r
      | .ok u => ∃ t, exec (.ctxRestore v) s = .next t ∧ ctxResult t = (0, false) ∧ t.cores = u.cores)) ∧
  (∀ (s : State) (v : Nat) (restore : Bool),
    let o := exec (if restore then .ckptRestore v else .ckptSave v) s
    let k : Ckpt := { restore, whole := decide (v / 2 ^ 8 % 2 = 1), vf := v % 64, startedAt := s.now }
    (s.pf.ckpt.getLsbD 63 = true → o = .next s) ∧
    (s.pf.ckpt.getLsbD 63 = false → v / 2 ^ 63 % 2 = 1 → decide (v / 2 ^ 9 % 2 = 1) = restore →
      (s.pf.ckptDestOk = false → ∃ t, o = .next t ∧ ckptResult t = (4, false) ∧ t.ckpt = s.ckpt ∧
        EventFor s t 64 9 4) ∧
      (s.pf.ckptDestOk = true → (∀ kc ∈ s.cores, ∀ kb ∈ kc.2.blocks, kb.2.task = none ∨ kb.2.committed = true) →
        ∃ t, o = .next t ∧ (ckptResult t).2 = true ∧ t.ckpt = some k ∧ ∀ c b x, t.block? c b = some x →
          k.scope x.vf = true → x.ended = false → x.preempt = true))) ∧
  (∀ (s : State) (k : Ckpt), s.ckpt = some k →
    let ends (o : Out) (status : Nat) (next : Option Ckpt) (also : State → Prop) : Prop :=
      ∃ t, o = .next t ∧ ckptResult t = (status, false) ∧ t.ckpt = next ∧ EventFor s t 64 9 status ∧ also t
    let quiet := s.scopeQuiet k = true ∧ ∀ f ∈ s.fly, k.scope f.vf = false
    (k.restore = false → k.ended = false → k.startedAt + 280000000 < s.now → s.scopeQuiet k = false →
      ends (exec .quiesceTimeout s) 2 none fun t => ∀ c b x, t.block? c b = some x → k.scope x.vf = true →
        x.preempt = false) ∧
    (k.restore = false → k.ended = false → quiet → ends (exec .checkpointDone s) 0 (some { k with ended := true })
      fun t => ∃ u ∈ t.tier, u.da = s.pf.ckptda ∧ u.db = s.pf.ckptdb ∧ u.whole = k.whole ∧ u.vf = k.vf ∧
        ∀ d a, d < 4 → inRanges ((s.die d).segments k) a = true →
          let masked := s.pf.poisen = false ∧ ∃ p ∈ (s.die d).poisoned, ∃ i, i < p.2 ∧
            dramCell (tget 0 (s.die d).wgran (p.1 / 32)) (p.1 + i) = a
          (masked → tget 0 (tget [] u.hbm d) a = 0xFF) ∧
          (¬ masked → tget 0 (tget [] u.hbm d) a = s.dramByte d a)) ∧
    (∀ u, k.restore = true → k.ended = false → quiet → s.tierFor k = some u →
      ends (exec .ckptRestoreDone s) 0 (some { k with ended := true }) fun t => ∀ d, d < 4 →
        let bytes := s.tierBytes u d
        let cell (a : Nat) : Nat := dramCell (tget 0 (t.die d).wgran (a / 32)) a
        (∀ x ∈ bytes, (∀ y ∈ bytes, cell y.1 = cell x.1 → y.2 = x.2) → t.dramByte d (cell x.1) = x.2) ∧
        ∀ a, (∀ y ∈ bytes, cell y.1 ≠ a) →
          t.dramByte d a = if inRanges ((s.die d).segments k) a = true then 0 else s.dramByte d a) ∧
    (k.ended = true → ∃ t, exec (.resume 1) s = .next t ∧ t.ckpt = none) ∧
    exec (.resume 0) s = .next s) ∧
  (∀ (s : State) (vf : Nat),
    (vf < 64 → (s.fn vf).resetting = false → ∃ t, exec (.functionLevelReset vf) s = .next t ∧
      t.fn vf = { poisen := (s.fn vf).poisen, ide := (s.fn vf).ide, resetting := true } ∧
      (∀ l ∈ t.launches, l.vf ≠ vf) ∧ (∀ c b k, t.block? c b = some k → k.vf ≠ vf) ∧
      ∀ d, d < 4 → memoryOf t d = memoryOf s d ∧ (∀ e ∈ (t.die d).gseals, e.vf ≠ vf) ∧
        ∀ kb ∈ (t.die d).bufs, ∀ sl ∈ kb.2, sl.pkt.part ≠ vf) ∧
    ((s.fn vf).resetting = true → (∀ kd ∈ s.dies, ∀ p ∈ kd.2.purging, p.2.1 ≠ vf) →
      ∃ t, exec (.functionLevelResetDone vf) s = .next t ∧ (t.fn vf).resetting = false)) ∧
  ∀ (s : State) (c v : Nat),
    let x := s.core c
    (∀ y, v / 2 ^ 30 % 2 = 1 → x.dbgHeld = none → s.group? c (v % 16) = some y → y.ended = false →
      ∃ t z, exec (.dbgClaim c v) s = .next t ∧ (t.core c).dbgHeld = some (v % 16) ∧
        t.group? c (v % 16) = some z ∧ z.claimed = true ∧ z.regs = y.regs ∧
        z.splits = y.splits.map fun p => if p.wait = 5 then p else { p with dwait := p.wait, wait := 5 }) ∧
    (∀ g y, v / 2 ^ 29 % 2 = 1 → x.dbgHeld = some g → s.group? c g = some y → y.claimed = true → y.ended = false →
      ∃ t z, exec (.dbgRelease c v) s = .next t ∧ (t.core c).dbgHeld = none ∧ t.group? c g = some z ∧
        Resettled s.now { y with
          claimed := false
          splits := y.splits.map fun p =>
            { p with wait := if p.wait = 5 then p.dwait else p.wait, dwait := if p.wait = 5 then 0 else p.dwait
                     readyAt := s.now + 1 } } z) ∧
    (v / 2 ^ 29 % 4 = 0 → ∀ i ∈ [Instr.dbgClaim c v, .dbgRelease c v], ∃ t, exec i s = .next t ∧
      (t.core c).dbgctl.toNat = v % 16 ∧ (t.core c).dbgHeld = x.dbgHeld) ∧
    let steps : List (Nat × (Nat → Nat → Instr)) := [(1, .dbgStepOne), (2, .dbgStepAll), (3, .dbgMove)]
    ∀ z ∈ steps,
      let o := exec (z.2 c v) s
      (x.dbgcmd.getLsbD 31 = true → o = .next s) ∧
      (x.dbgcmd.getLsbD 31 = false → v / 2 ^ 31 % 2 = 1 → v / 2 ^ 28 % 8 = 0 ∨ 4 ≤ v / 2 ^ 28 % 8 → ∀ g y,
        x.dbgHeld = some g → s.group? c g = some y → y.claimed = true → y.ended = false →
          ∃ t, o = .next t ∧ dbgResult t c = (0, false)) ∧
      (x.dbgcmd.getLsbD 31 = false → v / 2 ^ 31 % 2 = 1 → v / 2 ^ 28 % 8 = z.1 →
        let ends (res : Nat) : Prop := ∃ t, o = .next t ∧ dbgResult t c = (res, false)
        (x.dbgHeld = none → ends 1) ∧
        (∀ g, x.dbgHeld = some g → s.group? c g = none → ends 3) ∧
        ∀ g y, x.dbgHeld = some g → s.group? c g = some y → y.claimed = true → y.ended = false →
          let live := y.splits.filter fun p => p.handler == y.trap.active
          (z.1 ≠ 2 → v % 128 ≠ 127 → (∀ p ∈ live, p.id ≠ v % 128) → ends 2) ∧
          ∀ p, live.find? (fun p => decide (p.id = v % 128)) = some p → v % 128 ≠ 127 →
            (z.1 = 1 → p.wait = 5 → p.dwait = 0 → ∃ t, o = .next t ∧ (t.core c).steps = [p.id] ∧
              (dbgResult t c).2 = true) ∧
            (z.1 = 2 → p.wait = 5 → p.dwait = 0 → p.id < 97 → ∃ t, o = .next t ∧ p.id ∈ (t.core c).steps ∧
              (dbgResult t c).2 = true) ∧
            (z.1 = 3 → ends 0 ∧ (∀ e, x.freePlace 0 62 = some e → 64 ≤ p.place → ∃ t w, o = .next t ∧
              t.group? c g = some w ∧ ∃ q ∈ w.splits, q.id = p.id ∧ q.pc = p.pc ∧ q.place = e)))

/-- A step runs the decoded instruction (R41, R54, R89, R147, R148, R168, R211): where a core's choice is one split
alone, whose word and literal, from the fetched bytes at its PC, decode to `i`, the step is exec of `i` for that split;
PROG and AGE count it when it had its effect or waits, and the round-robin then and when it trapped (R130, R212). Of
two splits both take effect, the lower id first, or the trap of one alone, or nothing when one is held. In a claimed
group every split is held again afterwards. That a decision which finds nothing to issue leaves the machine as it
stands is the model's choice (log entry 1). -/
def Obligations.StepIssuesDecoded : Prop :=
  (∀ (s : State) (c : Nat) (k : Pick) (g : Group) (i : Instr), IssuesNext s c k g i →
    let u := { s.taken with cur := { core := c, slot := k.slot, split := k.first.id }, mark := .done, pre := none }
    match exec i u with
    | .next t => ∃ v, step s = .next v ∧
        if t.mark = .done ∨ t.mark = .waiting then
          (v.core c).rr = k.block ∧ v.mark = t.mark ∧ (∀ x a, v.spadByte x a = t.spadByte x a) ∧
          ∀ y, t.group? c k.slot = some y → ∃ z, v.group? c k.slot = some z ∧ z.prog = y.prog + 1 ∧
            z.issuedAt = some t.now ∧ z.regs = y.regs ∧ z.splits = y.splits.map fun p =>
              if p.id = k.first.id ∧ p.handler = k.first.handler then
                { p with age := BitVec.ofNat 32 (t.cycle c), idle := 0, due := false, grace := 0
                         yielded := if p.yielded = some t.now then p.yielded else none }
              else { p with yielded := none }
        else if t.mark = .held then v = t
        else (v.core c).rr = k.block ∧ v.mark = t.mark ∧ v.dies = t.dies ∧
          ∀ y, t.group? c k.slot = some y → v.group? c k.slot = some { y with issuedAt := some t.now }
    | .fault x => step s = .fault x
    | .refused x => step s = .refused x) ∧
  (∀ (s : State) (c : Nat) (k : Pick) (g : Group) (a b : Split) (i j : Instr) (t : State),
    IssuesPair s c k g a b i j →
    let by_ (x : State) (p : Split) (r : Option GRegs) : State :=
      { x with cur := { core := c, slot := k.slot, split := p.id }, mark := .done, pre := r }
    let traps (x : State) : Prop := ∃ v, step s = .next v ∧ (v.core c).rr = k.block ∧ v.mark = .trapped ∧
      v.dies = x.dies ∧ ∀ y, x.group? c k.slot = some y → v.group? c k.slot = some { y with issuedAt := some x.now }
    exec i (by_ s.taken a none) = .next t →
      (t.mark = .trapped → traps t) ∧ (t.mark = .held → Held s.taken (step s)) ∧
      (t.mark = .done ∨ t.mark = .waiting → ∀ w, exec j (by_ t b (some g.regs)) = .next w →
        (w.mark = .held → Held s.taken (step s)) ∧
        (w.mark = .trapped → ∀ x, exec j (by_ s.taken b none) = .next x → x.mark = .trapped → traps x) ∧
        (w.mark = .done ∨ w.mark = .waiting → ∃ v, step s = .next v ∧ (v.core c).rr = k.block ∧ v.mark = w.mark ∧
          (∀ x n, v.spadByte x n = w.spadByte x n) ∧ ∀ y, w.group? c k.slot = some y → ∃ z,
            v.group? c k.slot = some z ∧ z.prog = y.prog + 1 ∧ z.issuedAt = some w.now ∧ z.regs = y.regs ∧
            z.splits = y.splits.map fun p =>
              if (p.id = a.id ∨ p.id = b.id) ∧ p.handler = k.first.handler then
                { p with age := BitVec.ofNat 32 (w.cycle c), idle := 0, due := false, grace := 0
                         yielded := if p.yielded = some w.now then p.yielded else none }
              else { p with yielded := none }))) ∧
  (∀ (s : State) (c : Nat) (hg : List Nat) (hs : List (Nat × Nat)) (pair : Bool),
    s.script.head? = some (.issue c hg hs pair) →
    (s.taken.pick c hg hs pair = none → Held s.taken (step s)) ∧
    ∀ k g v, s.taken.pick c hg hs pair = some k → s.group? c k.slot = some g → g.claimed = true → step s = .next v →
      v = { s.taken with mark := .held } ∨
        ∀ z, v.group? c k.slot = some z → ∀ p ∈ z.splits, p.wait = 5) ∧
  ∀ (s : State) (c : Nat) (g : Group) (p : Split) (b : Block) (k : Code) (i : Instr),
    s.block? c g.block = some b → (s.core c).codeFor b.asid p.pc.toNat = some k → k.fail = 0 →
    let w := wordIn k p.pc.toNat
    (hasLiteral w = false → decode w 0 g.foot = .ok i → s.seen c g p = .instr i) ∧
    ∀ l, hasLiteral w = true → (s.core c).codeFor b.asid ((p.pc.toNat + 8) % 2 ^ 56) = some l → l.fail = 0 →
      decode w (wordIn l ((p.pc.toNat + 8) % 2 ^ 56)) g.foot = .ok i → s.seen c g p = .instr i

/-- Words written out from the field tables decode to their instructions (R38, R44, R47, R49 to R51, R53), and a
word of an unassigned major is rejected with reason 1 (R54). -/
def Obligations.WordsDecode : Prop :=
  (∀ x ∈ spelled, decode x.1 x.2.1 128 = .ok x.2.2) ∧
    decode 0x0C00000000000000 0 128 = .error .unassigned ∧ Reject.unassigned.code = 1

/-- Decoding and encoding agree (R38 to R54): a well-formed instruction with a word decodes from its words, and a
word that decodes gives a well-formed instruction whose words are that word and, with LX = 1 in format V or S,
its literal. -/
def Obligations.DecodeEncode : Prop :=
  (∀ (i : Instr) (foot : Nat) (w : DWord) (l : List DWord), wellFormed i foot = true → encode i = w :: l →
    decode w (l.headD 0) foot = .ok i) ∧
  ∀ (w lit : DWord) (foot : Nat) (i : Instr), decode w lit foot = .ok i →
    wellFormed i foot = true ∧ encode i = if hasLiteral w then [w, lit] else [w]

/-- What reset leaves (R82, R89, R284, R312, R321, R322, R325, R328, R372, R377, R381, R388, R389): no group or
block runs, the registers named here hold their reset values, and every memory is canonical. That unlisted memory
reads 0 and that scratchpads and DRAM start so, and that each die's slot index starts at 0, are the model's choices
(log entries 2 and 13). -/
def Obligations.Reset : Prop :=
  let s := State.reset
  s.memWf = true ∧
  (∀ c, (s.core c).groups = [] ∧ (s.core c).blocks = [] ∧ (s.core c).cmds = [] ∧ (s.core c).bufs = [] ∧
    (s.core c).tasks = [] ∧ s.cycle c = 0 ∧ (s.core c).dbgctl = 0 ∧ (s.core c).dbgcmd = 0 ∧
    (s.core c).dbgstat = 0) ∧
  (∀ d, (s.die d).mesharb = BitVec.ofNat 32 (128 * 2 ^ 16 + 1 * 16 + 4) ∧ (s.die d).slotcmd = 0 ∧
    (s.die d).slotIndex = 0 ∧
    (∀ r q, ((s.die d).port r q).cur = 0 ∧ ((s.die d).port r q).n = 0 ∧ ((s.die d).port r q).deferred = [] ∧
      (∀ i, tget 0 ((s.die d).port r q).slots i = 0) ∧ ((s.die d).port r q).txlat = 0 ∧
      ((s.die d).port r q).txbulk = 0 ∧ ((s.die d).port r q).txres = 0 ∧ ((s.die d).port r q).promo = 0 ∧
      ((s.die d).port r q).stallc = 0 ∧ ((s.die d).port r q).purged = 0) ∧
    (∀ n, n < 32 → (s.die d).lfsrAt n = 0xACE1 ^^^ 0x0101 * n) ∧
    (∀ t, (s.stop d t).freq = 0 ∧ (s.stop d t).fmrg = 0 ∧ (s.stop d t).ffet = 0 ∧ (s.stop d t).fwrt = 0 ∧
      (s.stop d t).cecnt = 0 ∧ (s.stop d t).uecnt = 0 ∧ (s.stop d t).macf = 0 ∧ (s.stop d t).poisr = 0) ∧
    (∀ a, tget 0 (s.die d).asidT a = 0 ∧ tget 0 (s.die d).seg a = 0 ∧ tget 0 (s.die d).hostSeg a = 0)) ∧
  (∀ f q, (s.fn f).queue q = { base := 0, size := 0, qwp := 0, qrp := 0, enable := false, qerr := false } ∧
    (s.fn f).evbase = 0 ∧ (s.fn f).evsize = 0 ∧ (s.fn f).evwp = 0 ∧ (s.fn f).evrp = 0 ∧
    (s.fn f).contained = false) ∧
  (∀ k, (s.cluster k).entries = [] ∧ (s.cluster k).passes = 0 ∧ (s.cluster k).names = 0) ∧
  s.pf.ckpt = 0 ∧ s.pf.ctxcmd = 0 ∧ s.fixlat = false ∧ s.launches = [] ∧ s.trust.log = []

/-- Every step keeps every memory canonical: scratchpads, DRAM, side bytes and host memory are lists of rising
addresses that list no byte equal to what an unlisted address reads as (R170, R345; the form is the model's, log
entry 2). -/
def Obligations.StepKeepsMemoryCanonical : Prop :=
  ∀ (s t : State), s.memWf = true → step s = .next t → t.memWf = true
end

