-- ==== Sys2Proof/Laws/Tbl.lean ====
section
/-!
SUPPORT. Laws of sparse tables: reading after writing, removing and changing, for every table, and the
canonical form.
-/
namespace Sys2Proof.Machine

variable {α : Type}

@[simp] theorem tget_tput_same (d : α) (t : Tbl α) (n : Nat) (x : α) : tget d (tput t n x) n = x := by
  induction t with
  | nil => simp [tput, tget]
  | cons kv t ih =>
    obtain ⟨k, v⟩ := kv
    simp only [tput]
    split
    · simp [tget]
    · split
      · simp [tget]
      · rename_i h1 h2; simp [tget, h2, ih]

theorem tget_tput_ne (d : α) (t : Tbl α) {n m : Nat} (x : α) (h : m ≠ n) :
    tget d (tput t n x) m = tget d t m := by
  induction t with
  | nil => simp [tput, tget, h]
  | cons kv t ih =>
    obtain ⟨k, v⟩ := kv
    simp only [tput]
    split
    · simp [tget, h]
    · split
      · rename_i h1 h2; subst h2; simp [tget, h]
      · simp [tget, ih]

@[simp] theorem tget_tdel_same (d : α) (t : Tbl α) (n : Nat) : tget d (tdel t n) n = d := by
  induction t with
  | nil => rfl
  | cons kv t ih =>
    obtain ⟨k, v⟩ := kv
    simp only [tdel, List.filter_cons, bne_iff_ne] at ih ⊢
    split
    · rename_i h; simp [tget, ih, Ne.symm h]
    · exact ih

theorem tget_tdel_ne (d : α) (t : Tbl α) {n m : Nat} (h : m ≠ n) : tget d (tdel t n) m = tget d t m := by
  induction t with
  | nil => rfl
  | cons kv t ih =>
    obtain ⟨k, v⟩ := kv
    simp only [tdel, List.filter_cons, bne_iff_ne] at ih ⊢
    split
    · simp [tget, ih]
    · rename_i hk; simp only [not_not] at hk; subst hk; simp [tget, ih, h]

@[simp] theorem tget_tset_same [DecidableEq α] (d : α) (t : Tbl α) (n : Nat) (x : α) :
    tget d (tset d t n x) n = x := by
  unfold tset; split <;> simp_all

theorem tget_tset_ne [DecidableEq α] (d : α) (t : Tbl α) {n m : Nat} (x : α) (h : m ≠ n) :
    tget d (tset d t n x) m = tget d t m := by
  unfold tset; split
  · exact tget_tdel_ne d t h
  · exact tget_tput_ne d t x h

/-- Reading any key after a write. -/
theorem tget_tset [DecidableEq α] (d : α) (t : Tbl α) (n m : Nat) (x : α) :
    tget d (tset d t n x) m = if m = n then x else tget d t m := by
  split
  · rename_i h; rw [h, tget_tset_same]
  · rename_i h; exact tget_tset_ne d t x h

/-- Finding any key after a write. -/
theorem tfind_tput (t : Tbl α) (n m : Nat) (x : α) :
    tfind? (tput t n x) m = if m = n then some x else tfind? t m := by
  induction t with
  | nil => simp [tput, tfind?]
  | cons kv t ih =>
    obtain ⟨k, v⟩ := kv
    simp only [tput]
    split
    · simp [tfind?]
    · split
      · rename_i h; subst h; by_cases h : m = n <;> simp [tfind?, h]
      · rename_i h; simp only [tfind?, ih]; by_cases hk : m = k <;> simp [hk, Ne.symm h]

/-- Finding any key after a removal. -/
theorem tfind_tdel (t : Tbl α) (n m : Nat) :
    tfind? (tdel t n) m = if m = n then none else tfind? t m := by
  induction t with
  | nil => simp [tdel, tfind?]
  | cons kv t ih =>
    obtain ⟨k, v⟩ := kv
    simp only [tdel, List.filter_cons, bne_iff_ne] at ih ⊢
    split
    · rename_i h
      simp only [tfind?, ih]
      by_cases hm : m = k
      · subst hm; simp [h]
      · simp [hm]
    · rename_i h
      simp only [not_not] at h
      subst h
      simp only [tfind?, ih]
      by_cases hm : m = k <;> simp [hm]

/-- Finding any key after a change of one entry. -/
theorem tfind_tmod (t : Tbl α) (n m : Nat) (f : α → α) :
    tfind? (tmod t n f) m = if m = n then (tfind? t n).map f else tfind? t m := by
  induction t with
  | nil => simp [tmod, tfind?]
  | cons kv t ih =>
    obtain ⟨k, v⟩ := kv
    simp only [tmod]
    split
    · rename_i h; subst h; by_cases h : m = n <;> simp [tfind?, h]
    · rename_i h
      simp only [tfind?, ih]
      by_cases hm : m = n
      · subst hm; simp [h]
      · simp [hm]

/-- Finding any key after a change of every entry. -/
theorem tfind_map (t : Tbl α) (n : Nat) (f : α → α) :
    tfind? (t.map fun kv => (kv.1, f kv.2)) n = (tfind? t n).map f := by
  induction t with
  | nil => rfl
  | cons kv t ih =>
    obtain ⟨k, v⟩ := kv
    simp only [List.map_cons, tfind?, ih]
    split <;> rfl

/-! ### The canonical form -/

theorem twfFrom_mono [DecidableEq α] {d : α} {lo lo' : Nat} {t : Tbl α} (h : lo' ≤ lo)
    (w : twfFrom d lo t = true) : twfFrom d lo' t = true := by
  cases t with
  | nil => rfl
  | cons kv t =>
    obtain ⟨k, v⟩ := kv
    simp only [twfFrom, Bool.and_eq_true, decide_eq_true_eq] at w ⊢
    exact ⟨⟨by omega, w.1.2⟩, w.2⟩

theorem twfFrom_tput [DecidableEq α] {d : α} {lo : Nat} {t : Tbl α} {n : Nat} {x : α}
    (w : twfFrom d lo t = true) (hn : lo ≤ n) (hx : x ≠ d) : twfFrom d lo (tput t n x) = true := by
  induction t generalizing lo with
  | nil => simp [tput, twfFrom, hn, hx]
  | cons kv t ih =>
    obtain ⟨k, v⟩ := kv
    simp only [twfFrom, Bool.and_eq_true, decide_eq_true_eq, Bool.not_eq_true', decide_eq_false_iff_not] at w
    simp only [tput]
    split
    · simp [twfFrom, hn, hx, w.1.2, w.2]; omega
    · split
      · rename_i h; subst h; simp [twfFrom, w.1.1, hx, w.2]
      · simp [twfFrom, w.1.1, w.1.2, ih w.2 (by omega)]

theorem twfFrom_filter [DecidableEq α] {d : α} {lo : Nat} {t : Tbl α} (p : Nat × α → Bool)
    (w : twfFrom d lo t = true) : twfFrom d lo (t.filter p) = true := by
  induction t generalizing lo with
  | nil => rfl
  | cons kv t ih =>
    obtain ⟨k, v⟩ := kv
    simp only [twfFrom, Bool.and_eq_true, decide_eq_true_eq, Bool.not_eq_true', decide_eq_false_iff_not] at w
    simp only [List.filter]
    split
    · simp [twfFrom, w.1.1, w.1.2, ih w.2]
    · exact twfFrom_mono (by omega) (ih w.2)

/-- A filtered canonical table is canonical. -/
theorem twf_filter [DecidableEq α] {d : α} {t : Tbl α} (p : Nat × α → Bool) (w : twf d t = true) :
    twf d (t.filter p) = true := twfFrom_filter p w

/-- Writing one key keeps the canonical form. -/
theorem twf_tset [DecidableEq α] {d : α} {t : Tbl α} (n : Nat) (x : α) (w : twf d t = true) :
    twf d (tset d t n x) = true := by
  unfold tset; split
  · exact twf_filter _ w
  · rename_i h; exact twfFrom_tput w (Nat.zero_le n) h

/-- Writing many keys keeps the canonical form. -/
theorem twf_foldl [DecidableEq α] {β : Type} {d : α} (k : β → Nat) (v : β → α) (l : List β) {t : Tbl α}
    (w : twf d t = true) : twf d (l.foldl (fun t c => tset d t (k c) (v c)) t) = true := by
  induction l generalizing t with
  | nil => exact w
  | cons b l ih => exact ih (twf_tset _ _ w)

/-- Two canonical tables that read the same are equal. -/
theorem twfFrom_tget_lt [DecidableEq α] {d : α} {lo n : Nat} {t : Tbl α} (w : twfFrom d lo t = true)
    (h : n < lo) : tget d t n = d := by
  induction t generalizing lo with
  | nil => rfl
  | cons kv t ih =>
    obtain ⟨k, v⟩ := kv
    simp only [twfFrom, Bool.and_eq_true, decide_eq_true_eq] at w
    simp only [tget]
    split
    · omega
    · exact ih w.2 (by omega)

end Sys2Proof.Machine
end

