-- ==== Sys2Proof/Laws/Frames.lean ====
section
/-!
SUPPORT. What the shared operations over registers keep and write: reading the machine after a change of
one group, the written registers, and the effect forms of Safety.lean for setS, setK, setV and wentTo.
-/
namespace Sys2Proof.Machine

/-! ### Cores, groups and blocks after a change -/

@[simp] theorem core_setCore_same (s : State) (c : Nat) (x : Core) : (s.setCore c x).core c = x := by
  simp [State.core, State.setCore]

theorem core_setCore (s : State) (c d : Nat) (x : Core) :
    (s.setCore c x).core d = if d = c then x else s.core d := by
  simp [State.core, State.setCore, tget_tset]

theorem core_modCore (s : State) (c d : Nat) (f : Core → Core) :
    (s.modCore c f).core d = if d = c then f (s.core c) else s.core d := by
  simp [State.modCore, core_setCore]

theorem group_modGroup (s : State) (c g d h : Nat) (f : Group → Group) :
    (s.modGroup c g f).group? d h =
      if d = c ∧ h = g then (s.group? c g).map f else s.group? d h := by
  simp only [State.modGroup, State.group?, core_modCore]
  by_cases hd : d = c
  · subst hd; simp [tfind_tmod]
  · simp [hd]

theorem block_modGroup (s : State) (c g d b : Nat) (f : Group → Group) :
    (s.modGroup c g f).block? d b = s.block? d b := by
  simp only [State.modGroup, State.block?, core_modCore]
  by_cases hd : d = c <;> simp [hd]

theorem rest_modCore (s : State) (c : Nat) (f : Core → Core) : (s.modCore c f).rest = s.rest := rfl

theorem coreRest_modGroup (s : State) (c g d : Nat) (f : Group → Group) :
    ((s.modGroup c g f).core d).rest = (s.core d).rest := by
  simp only [State.modGroup, core_modCore]
  by_cases hd : d = c
  · subst hd; simp [Core.rest]
  · simp [hd]

theorem spad_of_rest {x y : Core} (h : x.rest = y.rest) : x.spad = y.spad := by
  have := congrArg Core.spad h
  simpa [Core.rest] using this

/-- Machines that agree but for the groups and blocks of their cores read the same in every memory. -/
theorem spadByte_of_rest {s t : State} (h : ∀ c, (t.core c).rest = (s.core c).rest) (c a : Nat) :
    t.spadByte c a = s.spadByte c a := by
  simp [State.spadByte, spad_of_rest (h c)]

theorem dramByte_of_rest {s t : State} (r : t.rest = s.rest) (d a : Nat) :
    t.dramByte d a = s.dramByte d a := by
  have hd : t.dies = s.dies := by simpa [State.rest] using congrArg State.dies r
  simp [State.dramByte, State.die, hd]

theorem hostByte_of_rest {s t : State} (r : t.rest = s.rest) (a : Nat) :
    t.hostByte a = s.hostByte a := by
  have hh : t.hostMem = s.hostMem := by simpa [State.rest] using congrArg State.hostMem r
  simp [State.hostByte, hh]

/-- Nothing but the issuing group and the journal of its block has changed. -/
abbrev OnlyGroup (s t : State) (cx : Ctx) : Prop := KeepsOthers s t cx {}

/-- A change of the issuing group keeps all others. -/
theorem onlyGroup_modG (s : State) (cx : Ctx) (f : Group → Group) : OnlyGroup s (s.modG cx f) cx where
  groups c g h := by
    simp only [State.modG, group_modGroup, Option.map_id_fun, id]
    rw [if_neg]; rintro ⟨rfl, rfl⟩; simp at h
  ownBlock := by simp [State.modG, block_modGroup]
  blocks c b _ := by simp [State.modG, block_modGroup]
  cores c := by simp [State.modG, coreRest_modGroup]
  machine := rfl

theorem OnlyGroup.refl (s : State) (cx : Ctx) : OnlyGroup s s cx :=
  ⟨fun _ _ _ => by simp, by simp, fun _ _ _ => by simp, fun _ => rfl, rfl⟩

theorem OnlyGroup.trans {s t u : State} {cx : Ctx} (a : OnlyGroup s t cx) (b : OnlyGroup t u cx) :
    OnlyGroup s u cx where
  groups c g h := by rw [b.groups c g h, a.groups c g h]; simp
  ownBlock := by
    have h1 := b.ownBlock; have h2 := a.ownBlock
    simp only [id] at h1 h2 ⊢
    exact h1.trans h2
  blocks c k h := by rw [b.blocks c k h, a.blocks c k h]; simp
  cores c := (b.cores c).trans (a.cores c)
  machine := b.machine.trans a.machine

/-! ### The issuing split -/

/-- The issuing group, split and block are those of the state. -/
theorem ctx_spec {s : State} {cx : Ctx} (h : s.ctx? = some cx) :
    s.group? cx.core cx.slot = some cx.grp ∧ cx.grp.split? cx.sp.id = some cx.sp ∧
      s.block? cx.core cx.grp.block = some cx.blk ∧ cx.rd = s.pre.getD cx.grp.regs ∧
      cx.core = s.cur.core ∧ cx.slot = s.cur.slot ∧ cx.sp.id = s.cur.split := by
  unfold State.ctx? at h
  split at h
  · simp at h
  · rename_i g hg
    split at h
    · rename_i p b hp hb
      have hid : p.id = s.cur.split := by
        have := List.find?_some hp
        simp [Group.issues] at this; exact this.1
      simp only [Option.some.injEq] at h
      subst h
      refine ⟨hg, ?_, hb, rfl, rfl, rfl, hid⟩
      simp only [Group.split?, hid]; exact hp
    · simp at h

/-- An instruction of the issuing split. -/
theorem issue_eq {s : State} {cx : Ctx} (h : s.ctx? = some cx) (f : Ctx → Out) : s.issue f = f cx := by
  simp [State.issue, h]

/-- A change of splits that keeps ids and handler marks keeps the finding of each split. -/
theorem find_map_splits (l : List Split) (q : Split → Bool) (f : Split → Split)
    (h : ∀ p, q (f p) = q p) : (l.map f).find? q = (l.find? q).map f := by
  induction l with
  | nil => rfl
  | cons p l ih =>
    simp only [List.map_cons, List.find?_cons, h]
    cases q p <;> simp [ih]

theorem split_map (g : Group) (id : Nat) (f : Split → Split)
    (hi : ∀ p, (f p).id = p.id) (hh : ∀ p, (f p).handler = p.handler) (n : Nat) :
    ({ g with splits := g.splits.map fun p => if g.issues id p then f p else p } : Group).split? n =
      if n = id then (g.split? id).map f else g.split? n := by
  have hq : ∀ p, g.issues n (if g.issues id p = true then f p else p) = g.issues n p := by
    intro p; split <;> simp [Group.issues, hi, hh]
  have key : ({ g with splits := g.splits.map fun p => if g.issues id p then f p else p } : Group).split? n
      = (g.splits.find? (g.issues n)).map fun p => if g.issues id p then f p else p :=
    find_map_splits g.splits (g.issues n) _ hq
  rw [key]
  by_cases hn : n = id
  · subst hn
    simp only [if_true, Group.split?]
    cases h : g.splits.find? (g.issues n) with
    | none => rfl
    | some p => simp [List.find?_some h]
  · simp only [hn, if_false, Group.split?]
    cases h : g.splits.find? (g.issues n) with
    | none => rfl
    | some p =>
      have h1 := List.find?_some h
      have h2 : g.issues id p = false := by
        simp only [Group.issues, Bool.and_eq_true, decide_eq_true_eq] at h1
        simp [Group.issues, h1.1, hn]
      simp [h2]

/-! ### One change of the issuing group -/

/-- `t` is `s` with the issuing group changed by `F`, the marks of the last instruction, and the journal
of its block. -/
structure GroupStep (s t : State) (cx : Ctx) (F : Group → Group) : Prop where
  own : t.group? cx.core cx.slot = (s.group? cx.core cx.slot).map F
  others : OnlyGroup s t cx

theorem groupStep_modG (s : State) (cx : Ctx) (F : Group → Group) : GroupStep s (s.modG cx F) cx F where
  own := by simp [State.modG, group_modGroup]
  others := onlyGroup_modG s cx F

theorem GroupStep.refl (s : State) (cx : Ctx) : GroupStep s s cx id :=
  ⟨by simp, OnlyGroup.refl s cx⟩

theorem GroupStep.trans {s t u : State} {cx : Ctx} {F G : Group → Group} (a : GroupStep s t cx F)
    (b : GroupStep t u cx G) : GroupStep s u cx (G ∘ F) :=
  ⟨by rw [b.own, a.own, Option.map_map], a.others.trans b.others⟩

theorem GroupStep.congr {s t : State} {cx : Ctx} {F G : Group → Group} (a : GroupStep s t cx F)
    (h : ∀ g, F g = G g) : GroupStep s t cx G := by
  have : F = G := funext h
  exact this ▸ a

/-- The change of the issuing split by `f`. -/
def splitStep (cx : Ctx) (f : Split → Split) (g : Group) : Group :=
  { g with splits := g.splits.map fun p => if g.issues cx.sp.id p then f p else p }

theorem groupStep_wentTo (s : State) (cx : Ctx) (pc : DWord) :
    GroupStep s (s.wentTo cx pc) cx (splitStep cx fun p => p.goOn pc) := by
  have h := groupStep_modG s cx (splitStep cx fun p => p.goOn pc)
  exact ⟨h.own, h.others.groups, h.others.ownBlock, h.others.blocks, h.others.cores, rfl⟩

/-- Scalar register `n` written, as a change of the group. -/
def setSStep (cx : Ctx) (n : Nat) (w : Word) (g : Group) : Group :=
  if n < 56 then { g with regs := { g.regs with s := tset 0 g.regs.s n w } }
  else splitStep cx (fun p => p.setS n w) g

theorem groupStep_setS (s : State) (cx : Ctx) (n : Nat) (w : Word) :
    GroupStep s (s.setS cx n w) cx (setSStep cx n w) := by
  unfold State.setS setSStep
  by_cases h : n < 56
  · simp only [h, if_true]; exact groupStep_modG s cx _
  · simp only [h, if_false]; exact groupStep_modG s cx _

/-- Mask register `n` written, as a change of the group. -/
def setKStep (n : Nat) (at_ w : LaneMask) (g : Group) : Group :=
  if n = 0 then g
  else
    { g with regs := { g.regs with
        k := tset 0 g.regs.k n ((tget 0 g.regs.k n &&& ~~~at_) ||| (w &&& at_)) } }

theorem groupStep_setK (s : State) (cx : Ctx) (n : Nat) (at_ w : LaneMask) :
    GroupStep s (s.setK cx n at_ w) cx (setKStep n at_ w) := by
  unfold State.setK setKStep
  by_cases h : n = 0
  · simp only [h, if_true]; exact GroupStep.refl s cx
  · simp only [h, if_false]; exact groupStep_modG s cx _

/-- Lanes of a vector register written, as a change of the group. -/
def setVStep (r : Nat) (m : LaneMask) (f : Nat → Word) (g : Group) : Group :=
  { g with regs := { g.regs with
      v := (lanesOf m).foldl (fun t l => tset 0 t (96 * r + l) (f l)) g.regs.v } }

theorem block_modBlock (s : State) (c b d k : Nat) (f : Block → Block) :
    (s.modBlock c b f).block? d k = if d = c ∧ k = b then (s.block? c b).map f else s.block? d k := by
  simp only [State.modBlock, State.block?, core_modCore]
  by_cases hd : d = c
  · subst hd; simp [tfind_tmod]
  · simp [hd]

theorem group_modBlock (s : State) (c b d g : Nat) (f : Block → Block) :
    (s.modBlock c b f).group? d g = s.group? d g := by
  simp only [State.modBlock, State.group?, core_modCore]
  by_cases hd : d = c <;> simp [hd]

theorem coreRest_modBlock (s : State) (c b d : Nat) (f : Block → Block) :
    ((s.modBlock c b f).core d).rest = (s.core d).rest := by
  simp only [State.modBlock, core_modCore]
  by_cases hd : d = c
  · subst hd; simp [Core.rest]
  · simp [hd]

/-- A change of the issuing block's journal alone. -/
theorem groupStep_modBlock (s : State) (cx : Ctx) (f : Block → Block) (h : ∀ b, (f b).rest = b.rest) :
    GroupStep s (s.modBlock cx.core cx.grp.block f) cx id where
  own := by simp [group_modBlock]
  others :=
    { groups := fun c g _ => by simp [group_modBlock]
      ownBlock := by
        rw [block_modBlock]
        simp only [and_self, if_true, Option.map_map]
        congr 1; funext b; exact h b
      blocks := fun c b hb => by
        rw [block_modBlock, if_neg, Option.map_id_fun, id]; rintro ⟨rfl, rfl⟩; simp at hb
      cores := fun c => coreRest_modBlock ..
      machine := rfl }

theorem groupStep_journal (s : State) (cx : Ctx) (same : JRec → Bool) (r : JRec) :
    GroupStep s (s.journal cx.core cx.grp.block same r) cx id := by
  unfold State.journal
  split
  · exact GroupStep.refl s cx
  · split
    · exact GroupStep.refl s cx
    · split
      · exact groupStep_modBlock s cx _ fun _ => rfl
      · exact groupStep_modBlock s cx _ fun _ => rfl

theorem groupStep_setV (s : State) (cx : Ctx) (r : Nat) (m : LaneMask) (f : Nat → Word) :
    GroupStep s (s.setV cx r m f) cx (setVStep r m f) := by
  unfold State.setV
  by_cases h : m = 0
  · subst h
    simp only [if_true]
    refine (GroupStep.refl s cx).congr fun g => ?_
    have : lanesOf 0#96 = [] := by decide
    simp [setVStep, this]
  · simp only [h, if_false]
    have hj : GroupStep s (s.journalV cx r) cx id := by
      unfold State.journalV State.journalReg
      split
      · exact GroupStep.refl s cx
      · exact groupStep_journal s cx _ _
    exact (hj.trans (groupStep_modG _ cx (setVStep r m f))).congr fun g => rfl

end Sys2Proof.Machine
end

