-- ==== Sys2Proof/Laws/Effects.lean ====
section
/-!
SUPPORT. The effect forms of Safety.lean for the shared register operations: a scalar register, lanes of a
vector register or a mask register written, and a split that only goes on.
-/
namespace Sys2Proof.Machine

/-- What a change of the issuing group keeps, from what it keeps of that group. -/
theorem keeps_of_step {s t : State} {cx : Ctx} {F : Group → Group} (h : GroupStep s t cx F)
    {g : Group} (hg : s.group? cx.core cx.slot = some g) {p q : Split}
    (hp : g.split? cx.sp.id = some p) (hq : (F g).split? cx.sp.id = some q)
    {ss vs ks : List Nat} {E : Group → Group} {D : Split → Split} (hr : (F g).rest = (E g).rest)
    (hqr : q.rest = (D p).rest)
    (ho : ∀ id, id ≠ cx.sp.id → (F g).split? id = g.split? id)
    (hs : ∀ n, n < 64 → n ∉ ss → readS (F g).regs q n = readS g.regs p n)
    (hv : ∀ r l, l < 96 → r ∉ vs → tget 0 (F g).regs.v (96 * r + l) = tget 0 g.regs.v (96 * r + l))
    (hk : ∀ n, n ≠ 0 → n ∉ ks → tget 0 (F g).regs.k n = tget 0 g.regs.k n) :
    Keeps s t cx { ss := ss, vs := vs, ks := ks, group := E, split := D } where
  scalars n h1 h2 := by simp [State.sAt, h.own, hg, hp, hq, hs n h1 h2]
  vectors r l h1 h2 := by
    simp only [State.vAt, h.own, hg, Option.map_some, Option.some.injEq]; exact hv r l h1 h2
  masks n h1 := by
    simp only [State.kAt, h.own, hg, Option.map_some, Option.some.injEq]
    split
    · rfl
    · rename_i h0; exact hk n h0 h1
  special := by simp [State.grpAt, h.own, hg, hr]
  own := by simp [State.splitAt, h.own, hg, hp, hq, hqr]
  splits id hid := by simp [State.grpAt, h.own, hg, ho id hid]
  others := ⟨h.others.groups, h.others.ownBlock, h.others.blocks, h.others.cores, h.others.machine⟩
  spads c a _ := spadByte_of_rest h.others.cores c a
  drams := dramByte_of_rest h.others.machine
  hosts := hostByte_of_rest h.others.machine

theorem goOn_id (p : Split) (pc : DWord) : (p.goOn pc).id = p.id := rfl
theorem goOn_handler (p : Split) (pc : DWord) : (p.goOn pc).handler = p.handler := rfl

@[simp] theorem readS_goOn (r : GRegs) (p : Split) (pc : DWord) (n : Nat) :
    readS r (p.goOn pc) n = readS r p n := rfl

theorem setS_id (p : Split) (n : Nat) (w : Word) : (p.setS n w).id = p.id := by
  unfold Split.setS; repeat' split
  all_goals rfl
theorem setS_handler (p : Split) (n : Nat) (w : Word) : (p.setS n w).handler = p.handler := by
  unfold Split.setS; repeat' split
  all_goals rfl
theorem setS_rest (p : Split) (n : Nat) (w : Word) : (p.setS n w).rest = p.rest := by
  unfold Split.setS; repeat' split
  all_goals rfl

theorem split_splitStep (cx : Ctx) (f : Split → Split) (g : Group) (hi : ∀ p, (f p).id = p.id)
    (hh : ∀ p, (f p).handler = p.handler) (n : Nat) :
    (splitStep cx f g).split? n = if n = cx.sp.id then (g.split? cx.sp.id).map f else g.split? n :=
  split_map g cx.sp.id f hi hh n

/-- The word of exec that a write leaves (R85). -/
theorem exec_word_same (p : Split) (b : Nat) (w : Word) (hb : b < 3) :
    (writeExec p b w).exec.extractLsb' (32 * b) 32 = w &&& p.domain.extractLsb' (32 * b) 32 := by
  apply BitVec.eq_of_getLsbD_eq
  intro i hi
  have h1 : 32 * b + i < 96 := by omega
  simp only [writeExec, BitVec.getLsbD_extractLsb', hi, BitVec.getLsbD_or, BitVec.getLsbD_and,
    BitVec.getLsbD_not, h1, decide_true, Bool.true_and, BitVec.getLsbD_shiftLeft,
    show ¬ (32 * b + i < 32 * b) by omega, decide_false, Bool.not_false,
    show 32 * b + i - 32 * b = i by omega, BitVec.getLsbD_setWidth, show i < 96 by omega]
  have h2 : (4294967295#96).getLsbD i = true := by
    interval_cases i <;> decide
  simp [h2]

/-- The other words of exec stay (R85). -/
theorem exec_word_ne (p : Split) (b c : Nat) (w : Word) (hb : b < 3) (hc : c < 3) (h : c ≠ b) :
    (writeExec p b w).exec.extractLsb' (32 * c) 32 = p.exec.extractLsb' (32 * c) 32 := by
  apply BitVec.eq_of_getLsbD_eq
  intro i hi
  have h1 : 32 * c + i < 96 := by omega
  simp only [writeExec, BitVec.getLsbD_extractLsb', hi, BitVec.getLsbD_or, BitVec.getLsbD_and,
    BitVec.getLsbD_not, h1, decide_true, Bool.true_and, BitVec.getLsbD_shiftLeft, BitVec.getLsbD_setWidth]
  rcases Nat.lt_or_ge (32 * c + i) (32 * b) with h2 | h2
  · simp [h2]
  · have h3 : 32 ≤ 32 * c + i - 32 * b := by omega
    have h4 : (4294967295#96).getLsbD (32 * c + i - 32 * b) = false := by
      have : 32 * c + i - 32 * b < 96 := by omega
      generalize 32 * c + i - 32 * b = j at *
      interval_cases j <;> decide
    have h5 : w.getLsbD (32 * c + i - 32 * b) = false := BitVec.getLsbD_of_ge _ _ h3
    simp [h4, h5]

/-- Scalar register `m` of a split after a write of register `n` of its own. -/
theorem readS_setS (r : GRegs) (p : Split) (n m : Nat) (w : Word) (hn : 56 ≤ n) (hn' : n < 64)
    (hm : m < 64) : readS r (p.setS n w) m =
      if m = n then (if n < 61 then w else w &&& p.domain.extractLsb' (32 * (n - 61)) 32)
      else readS r p m := by
  rcases Nat.lt_or_ge n 61 with h | h
  · interval_cases n <;> interval_cases m <;> simp [readS, Split.setS]
  · have hb : n - 61 < 3 := by omega
    have e : p.setS n w = writeExec p (n - 61) w := by
      unfold Split.setS; repeat (rw [if_neg (by omega)])
    rw [e]
    by_cases hmn : m = n
    · subst hmn
      simp only [if_true, readS]
      repeat (rw [if_neg (by omega)])
      exact exec_word_same p _ w hb
    · simp only [hmn, if_false]
      rcases Nat.lt_or_ge m 61 with h2 | h2
      · interval_cases m <;> simp [readS, writeExec]
      · simp only [readS]
        repeat (rw [if_neg (by omega)])
        exact exec_word_ne p _ _ w hb (by omega) (by omega)

/-- The scalar form of every register instruction that writes one scalar register and goes on. -/
theorem writesScalar_setS {s : State} {cx : Ctx} (h : s.ctx? = some cx) (pc : DWord) {n : Nat}
    (hn : n < 64) (v : Word) : WritesScalar s cx (.next ((s.setS cx n v).wentTo cx pc)) pc n v := by
  obtain ⟨hg, hp, -⟩ := ctx_spec h
  have st := (groupStep_setS s cx n v).trans (groupStep_wentTo (s.setS cx n v) cx pc)
  have sp : ((splitStep cx fun p => p.goOn pc) ∘ setSStep cx n v) cx.grp =
      splitStep cx (fun p => p.goOn pc) (setSStep cx n v cx.grp) := rfl
  rcases Nat.lt_or_ge n 56 with h56 | h56
  · have e : setSStep cx n v cx.grp =
        { cx.grp with regs := { cx.grp.regs with s := tset 0 cx.grp.regs.s n v } } := by
      simp [setSStep, h56]
    have hq : (((splitStep cx fun p => p.goOn pc) ∘ setSStep cx n v) cx.grp).split? cx.sp.id =
        some (cx.sp.goOn pc) := by
      rw [sp, e, split_splitStep _ _ _ (fun p => goOn_id p pc) (fun p => goOn_handler p pc)]
      simp only [if_true]
      have : ({ cx.grp with regs := { cx.grp.regs with s := tset 0 cx.grp.regs.s n v } } : Group).split?
          cx.sp.id = cx.grp.split? cx.sp.id := rfl
      rw [this, hp]; rfl
    refine ⟨_, rfl, rfl, ?_, ?_, ?_⟩
    · rw [State.pcAt, State.splitAt, st.own, hg, Option.map_some, Option.bind_some, hq]; rfl
    · refine keeps_of_step st hg hp hq ?_ rfl ?_ ?_ ?_ ?_
      · rw [sp, e]; rfl
      · intro id hid
        rw [sp, e, split_splitStep _ _ _ (fun p => goOn_id p pc) (fun p => goOn_handler p pc), if_neg hid]
        rfl
      · intro m hm hne
        simp only [List.mem_singleton] at hne
        rw [sp, e]
        simp only [splitStep, readS, Split.goOn]
        split
        · exact tget_tset_ne _ _ _ hne
        · rfl
      · intro r l _ _; rw [sp, e]; rfl
      · intro k _ _; rw [sp, e]; rfl
    · simp only [State.sAt, st.own, hg, Option.map_some, Option.bind_some, hq, Option.some.injEq]
      rw [sp, e]
      simp [splitStep, readS, h56, landed, show n < 61 by omega]
  · have e : setSStep cx n v cx.grp = splitStep cx (fun p => p.setS n v) cx.grp := by
      simp [setSStep, Nat.not_lt.mpr h56]
    have hq : (((splitStep cx fun p => p.goOn pc) ∘ setSStep cx n v) cx.grp).split? cx.sp.id =
        some ((cx.sp.setS n v).goOn pc) := by
      rw [sp, e, split_splitStep _ _ _ (fun p => goOn_id p pc) (fun p => goOn_handler p pc)]
      simp only [if_true]
      rw [split_splitStep _ _ _ (fun p => setS_id p n v) (fun p => setS_handler p n v)]
      simp [hp]
    refine ⟨_, rfl, rfl, ?_, ?_, ?_⟩
    · rw [State.pcAt, State.splitAt, st.own, hg, Option.map_some, Option.bind_some, hq]; rfl
    · refine keeps_of_step st hg hp hq ?_ ?_ ?_ ?_ ?_ ?_
      · rw [sp, e]; rfl
      · exact setS_rest cx.sp n v
      · intro id hid
        rw [sp, e, split_splitStep _ _ _ (fun p => goOn_id p pc) (fun p => goOn_handler p pc), if_neg hid,
          split_splitStep _ _ _ (fun p => setS_id p n v) (fun p => setS_handler p n v), if_neg hid]
      · intro m hm hne
        simp only [List.mem_singleton] at hne
        rw [readS_goOn, readS_setS _ _ _ _ _ h56 hn hm, if_neg hne, sp, e]; rfl
      · intro r l _ _; rw [sp, e]; rfl
      · intro k _ _; rw [sp, e]; rfl
    · simp only [State.sAt, st.own, hg, Option.map_some, Option.bind_some, hq, readS_goOn,
        readS_setS _ _ _ _ _ h56 hn hn, if_true]
      rfl

/-- A split that only goes on. -/
theorem completes_wentTo {s : State} {cx : Ctx} (h : s.ctx? = some cx) (pc : DWord) :
    Completes s cx (.next (s.wentTo cx pc)) pc {} fun _ => True := by
  obtain ⟨hg, hp, -⟩ := ctx_spec h
  have st := groupStep_wentTo s cx pc
  have hq : (splitStep cx (fun p => p.goOn pc) cx.grp).split? cx.sp.id = some (cx.sp.goOn pc) := by
    rw [split_splitStep _ _ _ (fun p => goOn_id p pc) (fun p => goOn_handler p pc)]
    simp [hp]
  refine ⟨_, rfl, rfl, ?_, ?_, trivial⟩
  · rw [State.pcAt, State.splitAt, st.own, hg, Option.map_some, Option.bind_some, hq]; rfl
  · refine keeps_of_step st hg hp hq rfl rfl ?_ (fun _ _ _ => rfl) (fun _ _ _ _ => rfl)
      (fun _ _ _ => rfl)
    intro id hid
    rw [split_splitStep _ _ _ (fun p => goOn_id p pc) (fun p => goOn_handler p pc), if_neg hid]

/-! ### Masks and lanes -/

theorem mem_rangeFrom {lo n x : Nat} : x ∈ rangeFrom lo n ↔ lo ≤ x ∧ x < lo + n := by
  induction n generalizing lo with
  | zero => simp [rangeFrom]
  | succ n ih => simp only [rangeFrom, List.mem_cons, ih]; omega

theorem mem_lanesOf {m : LaneMask} {l : Nat} : l ∈ lanesOf m ↔ l < 96 ∧ m.getLsbD l = true := by
  simp [lanesOf, mem_rangeFrom]

/-- The lanes written one after another, as each then reads. -/
theorem tget_foldl_lanes (r : Nat) (f : Nat → Word) (ls : List Nat) (t : Tbl Word) (a : Nat) :
    tget 0 (ls.foldl (fun t l => tset 0 t (96 * r + l) (f l)) t) a =
      if ∃ l ∈ ls, a = 96 * r + l then f (a - 96 * r) else tget 0 t a := by
  induction ls generalizing t with
  | nil => simp
  | cons l ls ih =>
    simp only [List.foldl_cons, ih]
    by_cases h : ∃ x ∈ ls, a = 96 * r + x
    · have h' : ∃ x ∈ l :: ls, a = 96 * r + x := by
        obtain ⟨x, hx, e⟩ := h; exact ⟨x, List.mem_cons_of_mem _ hx, e⟩
      rw [if_pos h, if_pos h']
    · rw [if_neg h, tget_tset]
      by_cases ha : a = 96 * r + l
      · subst ha
        rw [if_pos rfl, if_pos ⟨l, List.mem_cons_self, rfl⟩, Nat.add_sub_cancel_left]
      · rw [if_neg ha, if_neg]
        rintro ⟨x, hx, e⟩
        rcases List.mem_cons.mp hx with rfl | hx
        · exact ha e
        · exact h ⟨x, hx, e⟩

/-- The form of every lane instruction that writes one vector register and goes on. -/
theorem writesLanes_setV {s : State} {cx : Ctx} (h : s.ctx? = some cx) (pc : DWord) (r : Nat)
    (m : LaneMask) (f : Nat → Word) :
    WritesLanes s cx (.next ((s.setV cx r m f).wentTo cx pc)) pc r m f := by
  obtain ⟨hg, hp, -⟩ := ctx_spec h
  have st := (groupStep_setV s cx r m f).trans (groupStep_wentTo (s.setV cx r m f) cx pc)
  have sp : ((splitStep cx fun p => p.goOn pc) ∘ setVStep r m f) cx.grp =
      splitStep cx (fun p => p.goOn pc) (setVStep r m f cx.grp) := rfl
  have hq : (((splitStep cx fun p => p.goOn pc) ∘ setVStep r m f) cx.grp).split? cx.sp.id =
      some (cx.sp.goOn pc) := by
    rw [sp, split_splitStep _ _ _ (fun p => goOn_id p pc) (fun p => goOn_handler p pc)]
    simp only [if_true]
    have : (setVStep r m f cx.grp).split? cx.sp.id = cx.grp.split? cx.sp.id := rfl
    rw [this, hp]; rfl
  have rd : ∀ a, tget 0 (((splitStep cx fun p => p.goOn pc) ∘ setVStep r m f) cx.grp).regs.v a =
      if ∃ l ∈ lanesOf m, a = 96 * r + l then f (a - 96 * r) else tget 0 cx.grp.regs.v a :=
    fun a => tget_foldl_lanes r f (lanesOf m) cx.grp.regs.v a
  refine ⟨_, rfl, rfl, ?_, ?_, ?_⟩
  · rw [State.pcAt, State.splitAt, st.own, hg, Option.map_some, Option.bind_some, hq]; rfl
  · refine keeps_of_step st hg hp hq rfl rfl ?_ (fun _ _ _ => rfl) ?_ (fun _ _ _ => rfl)
    · intro id hid
      rw [sp, split_splitStep _ _ _ (fun p => goOn_id p pc) (fun p => goOn_handler p pc), if_neg hid]; rfl
    · intro r' l hl hr
      simp only [List.mem_singleton] at hr
      rw [rd, if_neg]
      rintro ⟨x, hx, e⟩
      have := (mem_lanesOf.mp hx).1
      omega
  · intro l hl
    rw [State.vAt, st.own, hg, Option.map_some, Option.map_some, rd, State.vAt, hg, Option.map_some]
    by_cases hm : m.getLsbD l = true
    · rw [if_pos ⟨l, mem_lanesOf.mpr ⟨hl, hm⟩, rfl⟩, if_pos hm, Nat.add_sub_cancel_left]
    · rw [if_neg, if_neg hm]
      rintro ⟨x, hx, e⟩
      have : x = l := by omega
      subst this
      exact hm (mem_lanesOf.mp hx).2

/-- The form of every instruction that writes one mask register and goes on. -/
theorem writesMask_setK {s : State} {cx : Ctx} (h : s.ctx? = some cx) (pc : DWord) (n : Nat)
    (m w : LaneMask) :
    WritesMask s cx (.next ((s.setK cx n m w).wentTo cx pc)) pc n m fun l => w.getLsbD l := by
  obtain ⟨hg, hp, -⟩ := ctx_spec h
  have st := (groupStep_setK s cx n m w).trans (groupStep_wentTo (s.setK cx n m w) cx pc)
  have sp : ((splitStep cx fun p => p.goOn pc) ∘ setKStep n m w) cx.grp =
      splitStep cx (fun p => p.goOn pc) (setKStep n m w cx.grp) := rfl
  have keep : (setKStep n m w cx.grp).splits = cx.grp.splits ∧ (setKStep n m w cx.grp).trap = cx.grp.trap ∧
      (setKStep n m w cx.grp).rest = cx.grp.rest ∧ (setKStep n m w cx.grp).regs.s = cx.grp.regs.s ∧
      (setKStep n m w cx.grp).regs.v = cx.grp.regs.v := by
    unfold setKStep; split <;> exact ⟨rfl, rfl, rfl, rfl, rfl⟩
  have sk : ∀ id, (setKStep n m w cx.grp).split? id = cx.grp.split? id := by
    intro id
    simp only [Group.split?, keep.1]
    congr 1; funext p; simp [Group.issues, keep.2.1]
  have hq : (((splitStep cx fun p => p.goOn pc) ∘ setKStep n m w) cx.grp).split? cx.sp.id =
      some (cx.sp.goOn pc) := by
    rw [sp, split_splitStep _ _ _ (fun p => goOn_id p pc) (fun p => goOn_handler p pc)]
    simp [sk, hp]
  refine ⟨_, rfl, rfl, ?_, ?_, ?_⟩
  · rw [State.pcAt, State.splitAt, st.own, hg, Option.map_some, Option.bind_some, hq]; rfl
  · refine keeps_of_step st hg hp hq ?_ rfl ?_ ?_ ?_ ?_
    · rw [sp]; exact keep.2.2.1
    · intro id hid
      rw [sp, split_splitStep _ _ _ (fun p => goOn_id p pc) (fun p => goOn_handler p pc), if_neg hid, sk]
    · intro a _ _; rw [sp]; simp [splitStep, readS, keep.2.2.2.1, Split.goOn]
    · intro r l _ _; rw [sp]; simp [splitStep, keep.2.2.2.2]
    · intro a ha hne
      simp only [List.mem_singleton] at hne
      rw [sp]; simp only [splitStep, setKStep]
      split
      · rfl
      · exact tget_tset_ne _ _ _ hne
  · intro l hl
    rw [State.kAt, st.own, hg, Option.map_some, Option.map_some, Option.map_some, State.kAt, hg,
      Option.map_some, Option.map_some, sp]
    by_cases h0 : n = 0
    · simp [h0]
    · simp only [h0, if_false, ne_eq, not_false_eq_true, true_and, splitStep, setKStep, tget_tset_same,
        BitVec.getLsbD_or, BitVec.getLsbD_and, BitVec.getLsbD_not, hl, decide_true, Bool.true_and]
      cases hm : m.getLsbD l <;> simp

/-- The values written matter only in the lanes that are written. -/
theorem WritesLanes.congr {s : State} {cx : Ctx} {o : Out} {pc : DWord} {r : Nat} {m : LaneMask} {f g : Nat → Word}
    (h : WritesLanes s cx o pc r m f) (e : ∀ l, l < 96 → m.getLsbD l = true → f l = g l) :
    WritesLanes s cx o pc r m g := by
  obtain ⟨t, ht, hd, hp, hk, ha⟩ := h
  refine ⟨t, ht, hd, hp, hk, fun l hl => ?_⟩
  rw [ha l hl]
  split
  · rename_i hm; rw [e l hl hm]
  · rfl

/-- What holds of the next state of a completion may be weakened. -/
theorem Completes.mono {s : State} {cx : Ctx} {o : Out} {pc : DWord} {e : Effect} {p q : State → Prop}
    (h : Completes s cx o pc e p) (i : ∀ t, p t → q t) : Completes s cx o pc e q := by
  obtain ⟨t, ht, hd, hp, hk, ha⟩ := h
  exact ⟨t, ht, hd, hp, hk, i t ha⟩

end Sys2Proof.Machine
end

