-- ==== Sys2Proof/Laws/Exec.lean ====
section
/-!
SUPPORT. What exec calls for each instruction: one equation per constructor.
-/
namespace Sys2Proof.Machine

@[simp] theorem exec_nop (s : State) (f) : exec (.nop f) s = execNop f s := rfl
@[simp] theorem exec_bkpt (s : State) (f) : exec (.bkpt f) s = execBkpt f s := rfl
@[simp] theorem exec_trap (s : State) (f) : exec (.trap f) s = execTrap f s := rfl
@[simp] theorem exec_tret (s : State) (f) : exec (.tret f) s = execTret f s := rfl
@[simp] theorem exec_yield (s : State) (f) : exec (.yield f) s = execYield f s := rfl
@[simp] theorem exec_icinv (s : State) (f) : exec (.icinv f) s = execIcinv f s := rfl
@[simp] theorem exec_sread (s : State) (f) : exec (.sread f) s = execSread f s := rfl
@[simp] theorem exec_swrite (s : State) (f) : exec (.swrite f) s = execSwrite f s := rfl
@[simp] theorem exec_bra (s : State) (f) : exec (.bra f) s = execBra f s := rfl
@[simp] theorem exec_bsc (s : State) (f) : exec (.bsc f) s = execBsc f s := rfl
@[simp] theorem exec_bsz (s : State) (f) : exec (.bsz f) s = execBsz f s := rfl
@[simp] theorem exec_bdiv (s : State) (f) : exec (.bdiv f) s = execBdiv f s := rfl
@[simp] theorem exec_bdivx (s : State) (f) : exec (.bdivx f) s = execBdivx f s := rfl
@[simp] theorem exec_call (s : State) (f) : exec (.call f) s = execCall f s := rfl
@[simp] theorem exec_ret (s : State) (f) : exec (.ret f) s = execRet f s := rfl
@[simp] theorem exec_jmpi (s : State) (f) : exec (.jmpi f) s = execJmpi f s := rfl
@[simp] theorem exec_rjset (s : State) (f) : exec (.rjset f) s = execRjset f s := rfl
@[simp] theorem exec_rjoin (s : State) (f) : exec (.rjoin f) s = execRjoin f s := rfl
@[simp] theorem exec_rjpeek (s : State) (f) : exec (.rjpeek f) s = execRjpeek f s := rfl
@[simp] theorem exec_bar (s : State) (f) : exec (.bar f) s = execBar f s := rfl
@[simp] theorem exec_exit (s : State) (f) : exec (.exit f) s = execExit f s := rfl
@[simp] theorem exec_sadd (s : State) (f) : exec (.sadd f) s = execSadd f s := rfl
@[simp] theorem exec_ssub (s : State) (f) : exec (.ssub f) s = execSsub f s := rfl
@[simp] theorem exec_smul (s : State) (f) : exec (.smul f) s = execSmul f s := rfl
@[simp] theorem exec_smulh (s : State) (f) : exec (.smulh f) s = execSmulh f s := rfl
@[simp] theorem exec_smulhu (s : State) (f) : exec (.smulhu f) s = execSmulhu f s := rfl
@[simp] theorem exec_sand (s : State) (f) : exec (.sand f) s = execSand f s := rfl
@[simp] theorem exec_sor (s : State) (f) : exec (.sor f) s = execSor f s := rfl
@[simp] theorem exec_sxor (s : State) (f) : exec (.sxor f) s = execSxor f s := rfl
@[simp] theorem exec_sandn (s : State) (f) : exec (.sandn f) s = execSandn f s := rfl
@[simp] theorem exec_sshl (s : State) (f) : exec (.sshl f) s = execSshl f s := rfl
@[simp] theorem exec_sshr (s : State) (f) : exec (.sshr f) s = execSshr f s := rfl
@[simp] theorem exec_ssar (s : State) (f) : exec (.ssar f) s = execSsar f s := rfl
@[simp] theorem exec_srot (s : State) (f) : exec (.srot f) s = execSrot f s := rfl
@[simp] theorem exec_smin (s : State) (f) : exec (.smin f) s = execSmin f s := rfl
@[simp] theorem exec_smax (s : State) (f) : exec (.smax f) s = execSmax f s := rfl
@[simp] theorem exec_sminu (s : State) (f) : exec (.sminu f) s = execSminu f s := rfl
@[simp] theorem exec_smaxu (s : State) (f) : exec (.smaxu f) s = execSmaxu f s := rfl
@[simp] theorem exec_smov (s : State) (f) : exec (.smov f) s = execSmov f s := rfl
@[simp] theorem exec_sliShort (s : State) (f) : exec (.sliShort f) s = execSliShort f s := rfl
@[simp] theorem exec_sliLong (s : State) (f) : exec (.sliLong f) s = execSliLong f s := rfl
@[simp] theorem exec_slih (s : State) (f) : exec (.slih f) s = execSlih f s := rfl
@[simp] theorem exec_sceq (s : State) (f) : exec (.sceq f) s = execSceq f s := rfl
@[simp] theorem exec_scne (s : State) (f) : exec (.scne f) s = execScne f s := rfl
@[simp] theorem exec_sclt (s : State) (f) : exec (.sclt f) s = execSclt f s := rfl
@[simp] theorem exec_scle (s : State) (f) : exec (.scle f) s = execScle f s := rfl
@[simp] theorem exec_scltu (s : State) (f) : exec (.scltu f) s = execScltu f s := rfl
@[simp] theorem exec_scleu (s : State) (f) : exec (.scleu f) s = execScleu f s := rfl
@[simp] theorem exec_ssel (s : State) (f) : exec (.ssel f) s = execSsel f s := rfl
@[simp] theorem exec_spopc (s : State) (f) : exec (.spopc f) s = execSpopc f s := rfl
@[simp] theorem exec_sclz (s : State) (f) : exec (.sclz f) s = execSclz f s := rfl
@[simp] theorem exec_sffs (s : State) (f) : exec (.sffs f) s = execSffs f s := rfl
@[simp] theorem exec_kand (s : State) (f) : exec (.kand f) s = execKand f s := rfl
@[simp] theorem exec_kor (s : State) (f) : exec (.kor f) s = execKor f s := rfl
@[simp] theorem exec_kxor (s : State) (f) : exec (.kxor f) s = execKxor f s := rfl
@[simp] theorem exec_kandn (s : State) (f) : exec (.kandn f) s = execKandn f s := rfl
@[simp] theorem exec_knot (s : State) (f) : exec (.knot f) s = execKnot f s := rfl
@[simp] theorem exec_kmov (s : State) (f) : exec (.kmov f) s = execKmov f s := rfl
@[simp] theorem exec_kfroms (s : State) (f) : exec (.kfroms f) s = execKfroms f s := rfl
@[simp] theorem exec_ktos (s : State) (f) : exec (.ktos f) s = execKtos f s := rfl
@[simp] theorem exec_kpopc (s : State) (f) : exec (.kpopc f) s = execKpopc f s := rfl
@[simp] theorem exec_kfirst (s : State) (f) : exec (.kfirst f) s = execKfirst f s := rfl
@[simp] theorem exec_vadd (s : State) (f) : exec (.vadd f) s = execVadd f s := rfl
@[simp] theorem exec_vsub (s : State) (f) : exec (.vsub f) s = execVsub f s := rfl
@[simp] theorem exec_vmul (s : State) (f) : exec (.vmul f) s = execVmul f s := rfl
@[simp] theorem exec_vmulh (s : State) (f) : exec (.vmulh f) s = execVmulh f s := rfl
@[simp] theorem exec_vmulhu (s : State) (f) : exec (.vmulhu f) s = execVmulhu f s := rfl
@[simp] theorem exec_vmad (s : State) (f) : exec (.vmad f) s = execVmad f s := rfl
@[simp] theorem exec_vmin (s : State) (f) : exec (.vmin f) s = execVmin f s := rfl
@[simp] theorem exec_vmax (s : State) (f) : exec (.vmax f) s = execVmax f s := rfl
@[simp] theorem exec_vminu (s : State) (f) : exec (.vminu f) s = execVminu f s := rfl
@[simp] theorem exec_vmaxu (s : State) (f) : exec (.vmaxu f) s = execVmaxu f s := rfl
@[simp] theorem exec_vabs (s : State) (f) : exec (.vabs f) s = execVabs f s := rfl
@[simp] theorem exec_vneg (s : State) (f) : exec (.vneg f) s = execVneg f s := rfl
@[simp] theorem exec_vsadd (s : State) (f) : exec (.vsadd f) s = execVsadd f s := rfl
@[simp] theorem exec_vssub (s : State) (f) : exec (.vssub f) s = execVssub f s := rfl
@[simp] theorem exec_vsaddu (s : State) (f) : exec (.vsaddu f) s = execVsaddu f s := rfl
@[simp] theorem exec_vssubu (s : State) (f) : exec (.vssubu f) s = execVssubu f s := rfl
@[simp] theorem exec_vand (s : State) (f) : exec (.vand f) s = execVand f s := rfl
@[simp] theorem exec_vor (s : State) (f) : exec (.vor f) s = execVor f s := rfl
@[simp] theorem exec_vxor (s : State) (f) : exec (.vxor f) s = execVxor f s := rfl
@[simp] theorem exec_vandn (s : State) (f) : exec (.vandn f) s = execVandn f s := rfl
@[simp] theorem exec_vnot (s : State) (f) : exec (.vnot f) s = execVnot f s := rfl
@[simp] theorem exec_vshl (s : State) (f) : exec (.vshl f) s = execVshl f s := rfl
@[simp] theorem exec_vshr (s : State) (f) : exec (.vshr f) s = execVshr f s := rfl
@[simp] theorem exec_vsar (s : State) (f) : exec (.vsar f) s = execVsar f s := rfl
@[simp] theorem exec_vrot (s : State) (f) : exec (.vrot f) s = execVrot f s := rfl
@[simp] theorem exec_vclz (s : State) (f) : exec (.vclz f) s = execVclz f s := rfl
@[simp] theorem exec_vpopc (s : State) (f) : exec (.vpopc f) s = execVpopc f s := rfl
@[simp] theorem exec_vbrev (s : State) (f) : exec (.vbrev f) s = execVbrev f s := rfl
@[simp] theorem exec_vbfx (s : State) (f) : exec (.vbfx f) s = execVbfx f s := rfl
@[simp] theorem exec_vbfi (s : State) (f) : exec (.vbfi f) s = execVbfi f s := rfl
@[simp] theorem exec_vsel (s : State) (f) : exec (.vsel f) s = execVsel f s := rfl
@[simp] theorem exec_vmov (s : State) (f) : exec (.vmov f) s = execVmov f s := rfl
@[simp] theorem exec_vmovs (s : State) (f) : exec (.vmovs f) s = execVmovs f s := rfl
@[simp] theorem exec_vceq (s : State) (f) : exec (.vceq f) s = execVceq f s := rfl
@[simp] theorem exec_vcne (s : State) (f) : exec (.vcne f) s = execVcne f s := rfl
@[simp] theorem exec_vclt (s : State) (f) : exec (.vclt f) s = execVclt f s := rfl
@[simp] theorem exec_vcle (s : State) (f) : exec (.vcle f) s = execVcle f s := rfl
@[simp] theorem exec_vcltu (s : State) (f) : exec (.vcltu f) s = execVcltu f s := rfl
@[simp] theorem exec_vcleu (s : State) (f) : exec (.vcleu f) s = execVcleu f s := rfl
@[simp] theorem exec_vfceq (s : State) (f) : exec (.vfceq f) s = execVfceq f s := rfl
@[simp] theorem exec_vfclt (s : State) (f) : exec (.vfclt f) s = execVfclt f s := rfl
@[simp] theorem exec_vfcle (s : State) (f) : exec (.vfcle f) s = execVfcle f s := rfl
@[simp] theorem exec_vfcun (s : State) (f) : exec (.vfcun f) s = execVfcun f s := rfl
@[simp] theorem exec_vfclass (s : State) (f) : exec (.vfclass f) s = execVfclass f s := rfl
@[simp] theorem exec_vfadd (s : State) (f) : exec (.vfadd f) s = execVfadd f s := rfl
@[simp] theorem exec_vfsub (s : State) (f) : exec (.vfsub f) s = execVfsub f s := rfl
@[simp] theorem exec_vfmul (s : State) (f) : exec (.vfmul f) s = execVfmul f s := rfl
@[simp] theorem exec_vfma (s : State) (f) : exec (.vfma f) s = execVfma f s := rfl
@[simp] theorem exec_vfms (s : State) (f) : exec (.vfms f) s = execVfms f s := rfl
@[simp] theorem exec_vfnma (s : State) (f) : exec (.vfnma f) s = execVfnma f s := rfl
@[simp] theorem exec_vfnms (s : State) (f) : exec (.vfnms f) s = execVfnms f s := rfl
@[simp] theorem exec_vfmin (s : State) (f) : exec (.vfmin f) s = execVfmin f s := rfl
@[simp] theorem exec_vfmax (s : State) (f) : exec (.vfmax f) s = execVfmax f s := rfl
@[simp] theorem exec_vfabs (s : State) (f) : exec (.vfabs f) s = execVfabs f s := rfl
@[simp] theorem exec_vfneg (s : State) (f) : exec (.vfneg f) s = execVfneg f s := rfl
@[simp] theorem exec_vfcpys (s : State) (f) : exec (.vfcpys f) s = execVfcpys f s := rfl
@[simp] theorem exec_vfrint (s : State) (f) : exec (.vfrint f) s = execVfrint f s := rfl
@[simp] theorem exec_vrcp (s : State) (f) : exec (.vrcp f) s = execVrcp f s := rfl
@[simp] theorem exec_vrsq (s : State) (f) : exec (.vrsq f) s = execVrsq f s := rfl
@[simp] theorem exec_vsqrt (s : State) (f) : exec (.vsqrt f) s = execVsqrt f s := rfl
@[simp] theorem exec_vdiv (s : State) (f) : exec (.vdiv f) s = execVdiv f s := rfl
@[simp] theorem exec_vexp2 (s : State) (f) : exec (.vexp2 f) s = execVexp2 f s := rfl
@[simp] theorem exec_vlog2 (s : State) (f) : exec (.vlog2 f) s = execVlog2 f s := rfl
@[simp] theorem exec_vsin (s : State) (f) : exec (.vsin f) s = execVsin f s := rfl
@[simp] theorem exec_vcos (s : State) (f) : exec (.vcos f) s = execVcos f s := rfl
@[simp] theorem exec_vtanh (s : State) (f) : exec (.vtanh f) s = execVtanh f s := rfl
@[simp] theorem exec_vsigm (s : State) (f) : exec (.vsigm f) s = execVsigm f s := rfl
@[simp] theorem exec_vcvt (s : State) (f) : exec (.vcvt f) s = execVcvt f s := rfl
@[simp] theorem exec_vpack (s : State) (f) : exec (.vpack f) s = execVpack f s := rfl
@[simp] theorem exec_vunpk (s : State) (f) : exec (.vunpk f) s = execVunpk f s := rfl
@[simp] theorem exec_qswapx (s : State) (f) : exec (.qswapx f) s = execQswapx f s := rfl
@[simp] theorem exec_qswapy (s : State) (f) : exec (.qswapy f) s = execQswapy f s := rfl
@[simp] theorem exec_qswapd (s : State) (f) : exec (.qswapd f) s = execQswapd f s := rfl
@[simp] theorem exec_qbcast (s : State) (f) : exec (.qbcast f) s = execQbcast f s := rfl
@[simp] theorem exec_vshfl (s : State) (f) : exec (.vshfl f) s = execVshfl f s := rfl
@[simp] theorem exec_vshflup (s : State) (f) : exec (.vshflup f) s = execVshflup f s := rfl
@[simp] theorem exec_vshfldn (s : State) (f) : exec (.vshfldn f) s = execVshfldn f s := rfl
@[simp] theorem exec_vbcast (s : State) (f) : exec (.vbcast f) s = execVbcast f s := rfl
@[simp] theorem exec_vredu (s : State) (f) : exec (.vredu f) s = execVredu f s := rfl
@[simp] theorem exec_vscan (s : State) (f) : exec (.vscan f) s = execVscan f s := rfl
@[simp] theorem exec_vballot (s : State) (f) : exec (.vballot f) s = execVballot f s := rfl
@[simp] theorem exec_vcomp (s : State) (f) : exec (.vcomp f) s = execVcomp f s := rfl
@[simp] theorem exec_lds (s : State) (f) : exec (.lds f) s = execLds f s := rfl
@[simp] theorem exec_sts (s : State) (f) : exec (.sts f) s = execSts f s := rfl
@[simp] theorem exec_ldu (s : State) (f) : exec (.ldu f) s = execLdu f s := rfl
@[simp] theorem exec_stu (s : State) (f) : exec (.stu f) s = execStu f s := rfl
@[simp] theorem exec_ldres (s : State) (f) : exec (.ldres f) s = execLdres f s := rfl
@[simp] theorem exec_stcnd (s : State) (f) : exec (.stcnd f) s = execStcnd f s := rfl
@[simp] theorem exec_stcmp (s : State) (f) : exec (.stcmp f) s = execStcmp f s := rfl
@[simp] theorem exec_aadd (s : State) (f) : exec (.aadd f) s = execAadd f s := rfl
@[simp] theorem exec_asub (s : State) (f) : exec (.asub f) s = execAsub f s := rfl
@[simp] theorem exec_amin (s : State) (f) : exec (.amin f) s = execAmin f s := rfl
@[simp] theorem exec_amax (s : State) (f) : exec (.amax f) s = execAmax f s := rfl
@[simp] theorem exec_aminu (s : State) (f) : exec (.aminu f) s = execAminu f s := rfl
@[simp] theorem exec_amaxu (s : State) (f) : exec (.amaxu f) s = execAmaxu f s := rfl
@[simp] theorem exec_aand (s : State) (f) : exec (.aand f) s = execAand f s := rfl
@[simp] theorem exec_aor (s : State) (f) : exec (.aor f) s = execAor f s := rfl
@[simp] theorem exec_axor (s : State) (f) : exec (.axor f) s = execAxor f s := rfl
@[simp] theorem exec_axchg (s : State) (f) : exec (.axchg f) s = execAxchg f s := rfl
@[simp] theorem exec_acas (s : State) (f) : exec (.acas f) s = execAcas f s := rfl
@[simp] theorem exec_afadd (s : State) (f) : exec (.afadd f) s = execAfadd f s := rfl
@[simp] theorem exec_fence (s : State) (f) : exec (.fence f) s = execFence f s := rfl
@[simp] theorem exec_fseal (s : State) (f) : exec (.fseal f) s = execFseal f s := rfl
@[simp] theorem exec_funseal (s : State) (f) : exec (.funseal f) s = execFunseal f s := rfl
@[simp] theorem exec_push (s : State) (f) : exec (.push f) s = execPush f s := rfl
@[simp] theorem exec_bclose (s : State) (f) : exec (.bclose f) s = execBclose f s := rfl
@[simp] theorem exec_bwait (s : State) (f) : exec (.bwait f) s = execBwait f s := rfl
@[simp] theorem exec_bstat (s : State) (f) : exec (.bstat f) s = execBstat f s := rfl
@[simp] theorem exec_waitc (s : State) (f) : exec (.waitc f) s = execWaitc f s := rfl
@[simp] theorem exec_resid (s : State) (f) : exec (.resid f) s = execResid f s := rfl
@[simp] theorem exec_send (s : State) (f) : exec (.send f) s = execSend f s := rfl
@[simp] theorem exec_sendv (s : State) (f) : exec (.sendv f) s = execSendv f s := rfl
@[simp] theorem exec_recv (s : State) (f) : exec (.recv f) s = execRecv f s := rfl
@[simp] theorem exec_recvt (s : State) (f) : exec (.recvt f) s = execRecvt f s := rfl
@[simp] theorem exec_recvv (s : State) (f) : exec (.recvv f) s = execRecvv f s := rfl
@[simp] theorem exec_amsg (s : State) (f) : exec (.amsg f) s = execAmsg f s := rfl
@[simp] theorem exec_spawn (s : State) (f) : exec (.spawn f) s = execSpawn f s := rfl
@[simp] theorem exec_commit (s : State) (f) : exec (.commit f) s = execCommit f s := rfl
@[simp] theorem exec_tjoin (s : State) (f) : exec (.tjoin f) s = execTjoin f s := rfl
@[simp] theorem exec_tstat (s : State) (f) : exec (.tstat f) s = execTstat f s := rfl
@[simp] theorem exec_hgive (s : State) (f) : exec (.hgive f) s = execHgive f s := rfl
@[simp] theorem exec_hgiveMake (s : State) (f) : exec (.hgiveMake f) s = execHgiveMake f s := rfl
@[simp] theorem exec_htake (s : State) (f) : exec (.htake f) s = execHtake f s := rfl
@[simp] theorem exec_htaket (s : State) (f) : exec (.htaket f) s = execHtaket f s := rfl
@[simp] theorem exec_hstat (s : State) (f) : exec (.hstat f) s = execHstat f s := rfl
@[simp] theorem exec_hdrop (s : State) (f) : exec (.hdrop f) s = execHdrop f s := rfl
@[simp] theorem exec_mloadw (s : State) (f) : exec (.mloadw f) s = execMloadw f s := rfl
@[simp] theorem exec_mswap (s : State) (f) : exec (.mswap f) s = execMswap f s := rfl
@[simp] theorem exec_mloop (s : State) (f) : exec (.mloop f) s = execMloop f s := rfl
@[simp] theorem exec_mdrain (s : State) (f) : exec (.mdrain f) s = execMdrain f s := rfl
@[simp] theorem exec_mzero (s : State) (f) : exec (.mzero f) s = execMzero f s := rfl
@[simp] theorem exec_mstat (s : State) (f) : exec (.mstat f) s = execMstat f s := rfl
@[simp] theorem exec_cvjoin (s : State) (f) : exec (.cvjoin f) s = execCvjoin f s := rfl
@[simp] theorem exec_cvleave (s : State) (f) : exec (.cvleave f) s = execCvleave f s := rfl
@[simp] theorem exec_copy (s : State) (core) (seq) : exec (.copy core seq) s = execCopy core seq s := rfl
@[simp] theorem exec_copy2d (s : State) (core) (seq) : exec (.copy2d core seq) s = execCopy2d core seq s := rfl
@[simp] theorem exec_fill (s : State) (core) (seq) : exec (.fill core seq) s = execFill core seq s := rfl
@[simp] theorem exec_gather (s : State) (core) (seq) : exec (.gather core seq) s = execGather core seq s := rfl
@[simp] theorem exec_scatter (s : State) (core) (seq) : exec (.scatter core seq) s = execScatter core seq s := rfl
@[simp] theorem exec_atom (s : State) (core) (seq) : exec (.atom core seq) s = execAtom core seq s := rfl
@[simp] theorem exec_reduce (s : State) (core) (seq) : exec (.reduce core seq) s = execReduce core seq s := rfl
@[simp] theorem exec_allred (s : State) (core) (seq) : exec (.allred core seq) s = execAllred core seq s := rfl
@[simp] theorem exec_bcast (s : State) (core) (seq) : exec (.bcast core seq) s = execBcast core seq s := rfl
@[simp] theorem exec_pagereq (s : State) (core) (seq) : exec (.pagereq core seq) s = execPagereq core seq s := rfl
@[simp] theorem exec_tlbinv (s : State) (core) (seq) : exec (.tlbinv core seq) s = execTlbinv core seq s := rfl
@[simp] theorem exec_rcopy (s : State) (core) (seq) : exec (.rcopy core seq) s = execRcopy core seq s := rfl
@[simp] theorem exec_commandCompletion (s : State) (core) (seq) : exec (.commandCompletion core seq) s = execCommandCompletion core seq s := rfl
@[simp] theorem exec_storePerform (s : State) (core) (slot) : exec (.storePerform core slot) s = execStorePerform core slot s := rfl
@[simp] theorem exec_rejoinRelease (s : State) (core) (slot) (j) : exec (.rejoinRelease core slot j) s = execRejoinRelease core slot j s := rfl
@[simp] theorem exec_barrierRelease (s : State) (core) (block) : exec (.barrierRelease core block) s = execBarrierRelease core block s := rfl
@[simp] theorem exec_fairnessDue (s : State) (core) (slot) (split) : exec (.fairnessDue core slot split) s = execFairnessDue core slot split s := rfl
@[simp] theorem exec_paddockSwap (s : State) (core) (slot) : exec (.paddockSwap core slot) s = execPaddockSwap core slot s := rfl
@[simp] theorem exec_reservationGraceEnd (s : State) (core) (slot) (split) : exec (.reservationGraceEnd core slot split) s = execReservationGraceEnd core slot split s := rfl
@[simp] theorem exec_softErrorRollback (s : State) (core) (block) : exec (.softErrorRollback core block) s = execSoftErrorRollback core block s := rfl
@[simp] theorem exec_matrixTrapDelivery (s : State) (core) (slot) : exec (.matrixTrapDelivery core slot) s = execMatrixTrapDelivery core slot s := rfl
@[simp] theorem exec_taskPlacement (s : State) (core) (tslot) : exec (.taskPlacement core tslot) s = execTaskPlacement core tslot s := rfl
@[simp] theorem exec_taskSteal (s : State) (thief) (victim) : exec (.taskSteal thief victim) s = execTaskSteal thief victim s := rfl
@[simp] theorem exec_stealAcknowledgement (s : State) (victim) (tslot) (gen) : exec (.stealAcknowledgement victim tslot gen) s = execStealAcknowledgement victim tslot gen s := rfl
@[simp] theorem exec_leaseExpiry (s : State) (victim) (tslot) : exec (.leaseExpiry victim tslot) s = execLeaseExpiry victim tslot s := rfl
@[simp] theorem exec_launchTake (s : State) (fn) (queue) : exec (.launchTake fn queue) s = execLaunchTake fn queue s := rfl
@[simp] theorem exec_gangPlacement (s : State) (launch) : exec (.gangPlacement launch) s = execGangPlacement launch s := rfl
@[simp] theorem exec_launchEnd (s : State) (launch) : exec (.launchEnd launch) s = execLaunchEnd launch s := rfl
@[simp] theorem exec_messageArrival (s : State) (core) : exec (.messageArrival core) s = execMessageArrival core s := rfl
@[simp] theorem exec_receiveFill (s : State) (core) (slot) (chan) : exec (.receiveFill core slot chan) s = execReceiveFill core slot chan s := rfl
@[simp] theorem exec_nackArrival (s : State) (core) : exec (.nackArrival core) s = execNackArrival core s := rfl
@[simp] theorem exec_amsgArrival (s : State) (core) : exec (.amsgArrival core) s = execAmsgArrival core s := rfl
@[simp] theorem exec_handlerStart (s : State) (core) : exec (.handlerStart core) s = execHandlerStart core s := rfl
@[simp] theorem exec_convoyAnswer (s : State) (die) : exec (.convoyAnswer die) s = execConvoyAnswer die s := rfl
@[simp] theorem exec_boundUpdate (s : State) (die) (cslot) (member) : exec (.boundUpdate die cslot member) s = execBoundUpdate die cslot member s := rfl
@[simp] theorem exec_unhitchTimeout (s : State) (core) (slot) : exec (.unhitchTimeout core slot) s = execUnhitchTimeout core slot s := rfl
@[simp] theorem exec_foldReadRequest (s : State) (die) (stop) : exec (.foldReadRequest die stop) s = execFoldReadRequest die stop s := rfl
@[simp] theorem exec_dramDataArrival (s : State) (die) (stop) (entry) : exec (.dramDataArrival die stop entry) s = execDramDataArrival die stop entry s := rfl
@[simp] theorem exec_stopWrite (s : State) (die) (stop) : exec (.stopWrite die stop) s = execStopWrite die stop s := rfl
@[simp] theorem exec_stopAtomic (s : State) (die) (stop) : exec (.stopAtomic die stop) s = execStopAtomic die stop s := rfl
@[simp] theorem exec_unitTranslation (s : State) (die) (unit) : exec (.unitTranslation die unit) s = execUnitTranslation die unit s := rfl
@[simp] theorem exec_pageWalkComplete (s : State) (die) (walk) : exec (.pageWalkComplete die walk) s = execPageWalkComplete die walk s := rfl
@[simp] theorem exec_globalSealRequest (s : State) (die) (request) : exec (.globalSealRequest die request) s = execGlobalSealRequest die request s := rfl
@[simp] theorem exec_globalUnsealRequest (s : State) (die) (request) : exec (.globalUnsealRequest die request) s = execGlobalUnsealRequest die request s := rfl
@[simp] theorem exec_replicaCopy (s : State) (die) (pa) (target) : exec (.replicaCopy die pa target) s = execReplicaCopy die pa target s := rfl
@[simp] theorem exec_outputPortGrant (s : State) (die) (router) (port) : exec (.outputPortGrant die router port) s = execOutputPortGrant die router port s := rfl
@[simp] theorem exec_headPromotion (s : State) (die) (router) (inport) (vc) : exec (.headPromotion die router inport vc) s = execHeadPromotion die router inport vc s := rfl
@[simp] theorem exec_mesharbWrite (s : State) (die) (value) : exec (.mesharbWrite die value) s = execMesharbWrite die value s := rfl
@[simp] theorem exec_mesharbApply (s : State) (die) : exec (.mesharbApply die) s = execMesharbApply die s := rfl
@[simp] theorem exec_slotcmd (s : State) (die) (value) : exec (.slotcmd die value) s = execSlotcmd die value s := rfl
@[simp] theorem exec_slotTableReplace (s : State) (die) : exec (.slotTableReplace die) s = execSlotTableReplace die s := rfl
@[simp] theorem exec_passGrant (s : State) (cluster) : exec (.passGrant cluster) s = execPassGrant cluster s := rfl
@[simp] theorem exec_loopPriorityAging (s : State) (cluster) (entry) : exec (.loopPriorityAging cluster entry) s = execLoopPriorityAging cluster entry s := rfl
@[simp] theorem exec_matrixEntryComplete (s : State) (cluster) (entry) : exec (.matrixEntryComplete cluster entry) s = execMatrixEntryComplete cluster entry s := rfl
@[simp] theorem exec_drainPerform (s : State) (cluster) (entry) : exec (.drainPerform cluster entry) s = execDrainPerform cluster entry s := rfl
@[simp] theorem exec_zeroPerform (s : State) (cluster) (entry) : exec (.zeroPerform cluster entry) s = execZeroPerform cluster entry s := rfl
@[simp] theorem exec_planeLoad (s : State) (cluster) (entry) : exec (.planeLoad cluster entry) s = execPlaneLoad cluster entry s := rfl
@[simp] theorem exec_planeSwap (s : State) (cluster) (entry) : exec (.planeSwap cluster entry) s = execPlaneSwap cluster entry s := rfl
@[simp] theorem exec_operandFault (s : State) (cluster) (entry) : exec (.operandFault cluster entry) s = execOperandFault cluster entry s := rfl
@[simp] theorem exec_spareRowMismatch (s : State) (cluster) (entry) (column) (outcome) : exec (.spareRowMismatch cluster entry column outcome) s = execSpareRowMismatch cluster entry column outcome s := rfl
@[simp] theorem exec_accumulatorError (s : State) (cluster) (entry) (row) : exec (.accumulatorError cluster entry row) s = execAccumulatorError cluster entry row s := rfl
@[simp] theorem exec_engineService (s : State) (cluster) (value) : exec (.engineService cluster value) s = execEngineService cluster value s := rfl
@[simp] theorem exec_qwpDoorbell (s : State) (fn) (queue) (value) : exec (.qwpDoorbell fn queue value) s = execQwpDoorbell fn queue value s := rfl
@[simp] theorem exec_registerWrite (s : State) (fn) (offset) (size) (value) : exec (.registerWrite fn offset size value) s = execRegisterWrite fn offset size value s := rfl
@[simp] theorem exec_functionLevelReset (s : State) (vf) : exec (.functionLevelReset vf) s = execFunctionLevelReset vf s := rfl
@[simp] theorem exec_ckptSave (s : State) (value) : exec (.ckptSave value) s = execCkptSave value s := rfl
@[simp] theorem exec_ckptRestore (s : State) (value) : exec (.ckptRestore value) s = execCkptRestore value s := rfl
@[simp] theorem exec_quiesceTimeout (s : State) : exec .quiesceTimeout s = execQuiesceTimeout s := rfl
@[simp] theorem exec_checkpointDone (s : State) : exec .checkpointDone s = execCheckpointDone s := rfl
@[simp] theorem exec_resume (s : State) (value) : exec (.resume value) s = execResume value s := rfl
@[simp] theorem exec_replan (s : State) (value) : exec (.replan value) s = execReplan value s := rfl
@[simp] theorem exec_periodicReplan (s : State) (die) (plan) : exec (.periodicReplan die plan) s = execPeriodicReplan die plan s := rfl
@[simp] theorem exec_containClear (s : State) (vf) (value) : exec (.containClear vf value) s = execContainClear vf value s := rfl
@[simp] theorem exec_fixlat (s : State) (die) (value) : exec (.fixlat die value) s = execFixlat die value s := rfl
@[simp] theorem exec_clrcnt (s : State) (die) (value) : exec (.clrcnt die value) s = execClrcnt die value s := rfl
@[simp] theorem exec_linkRetrain (s : State) (link) (value) : exec (.linkRetrain link value) s = execLinkRetrain link value s := rfl
@[simp] theorem exec_ctxSave (s : State) (value) : exec (.ctxSave value) s = execCtxSave value s := rfl
@[simp] theorem exec_ctxRestore (s : State) (value) : exec (.ctxRestore value) s = execCtxRestore value s := rfl
@[simp] theorem exec_ctxDiscard (s : State) (value) : exec (.ctxDiscard value) s = execCtxDiscard value s := rfl
@[simp] theorem exec_dbgClaim (s : State) (core) (value) : exec (.dbgClaim core value) s = execDbgClaim core value s := rfl
@[simp] theorem exec_dbgRelease (s : State) (core) (value) : exec (.dbgRelease core value) s = execDbgRelease core value s := rfl
@[simp] theorem exec_dbgStepOne (s : State) (core) (value) : exec (.dbgStepOne core value) s = execDbgStepOne core value s := rfl
@[simp] theorem exec_dbgStepAll (s : State) (core) (value) : exec (.dbgStepAll core value) s = execDbgStepAll core value s := rfl
@[simp] theorem exec_dbgMove (s : State) (core) (value) : exec (.dbgMove core value) s = execDbgMove core value s := rfl
@[simp] theorem exec_boot (s : State) : exec .boot s = execBoot s := rfl
@[simp] theorem exec_spdmGetCertificate (s : State) : exec .spdmGetCertificate s = execSpdmGetCertificate s := rfl
@[simp] theorem exec_spdmGetMeasurements (s : State) (nonce) : exec (.spdmGetMeasurements nonce) s = execSpdmGetMeasurements nonce s := rfl
@[simp] theorem exec_corePowerGate (s : State) (core) : exec (.corePowerGate core) s = execCorePowerGate core s := rfl
@[simp] theorem exec_instructionFetch (s : State) (core) (asid) (block) : exec (.instructionFetch core asid block) s = execInstructionFetch core asid block s := rfl
@[simp] theorem exec_fetchReturn (s : State) (core) (fetch) : exec (.fetchReturn core fetch) s = execFetchReturn core fetch s := rfl
@[simp] theorem exec_hostReadCompletion (s : State) (request) (poison) : exec (.hostReadCompletion request poison) s = execHostReadCompletion request poison s := rfl
@[simp] theorem exec_linkFrameArrival (s : State) (link) (good) : exec (.linkFrameArrival link good) s = execLinkFrameArrival link good s := rfl
@[simp] theorem exec_linkDown (s : State) (link) : exec (.linkDown link) s = execLinkDown link s := rfl
@[simp] theorem exec_keyRenewal (s : State) (link) : exec (.keyRenewal link) s = execKeyRenewal link s := rfl
@[simp] theorem exec_fabricForward (s : State) (packet) : exec (.fabricForward packet) s = execFabricForward packet s := rfl
@[simp] theorem exec_contributionArrival (s : State) (contribution) : exec (.contributionArrival contribution) s = execContributionArrival contribution s := rfl
@[simp] theorem exec_contributorTimeout (s : State) (core) (seq) : exec (.contributorTimeout core seq) s = execContributorTimeout core seq s := rfl
@[simp] theorem exec_combinerTimeout (s : State) (entry) : exec (.combinerTimeout entry) s = execCombinerTimeout entry s := rfl
@[simp] theorem exec_rcopyUnitArrival (s : State) (unit) : exec (.rcopyUnitArrival unit) s = execRcopyUnitArrival unit s := rfl
@[simp] theorem exec_illegalWord (s : State) (reason) : exec (.illegalWord reason) s = execIllegalWord reason s := rfl
@[simp] theorem exec_resultArrival (s : State) (result) : exec (.resultArrival result) s = execResultArrival result s := rfl
@[simp] theorem exec_taskCompletionReport (s : State) (report) : exec (.taskCompletionReport report) s = execTaskCompletionReport report s := rfl
@[simp] theorem exec_hostWriteCompletion (s : State) (request) : exec (.hostWriteCompletion request) s = execHostWriteCompletion request s := rfl
@[simp] theorem exec_linkTrained (s : State) (link) (roundTrip) (keys) : exec (.linkTrained link roundTrip keys) s = execLinkTrained link roundTrip keys s := rfl
@[simp] theorem exec_ideKm (s : State) (vf) (up) : exec (.ideKm vf up) s = execIdeKm vf up s := rfl
@[simp] theorem exec_powerStateChange (s : State) (d3hot) : exec (.powerStateChange d3hot) s = execPowerStateChange d3hot s := rfl
@[simp] theorem exec_modulePowerLimit (s : State) (limit) : exec (.modulePowerLimit limit) s = execModulePowerLimit limit s := rfl
@[simp] theorem exec_ckptRestoreDone (s : State) : exec .ckptRestoreDone s = execCkptRestoreDone s := rfl
@[simp] theorem exec_functionLevelResetDone (s : State) (vf) : exec (.functionLevelResetDone vf) s = execFunctionLevelResetDone vf s := rfl

end Sys2Proof.Machine
end

