-- ==== Sys2Proof/Laws/State.lean ====
section
/-!
SUPPORT. What each named update of the state keeps, one law per field and update, and what it writes: an
update of one core, die, cluster, function or launch leaves every other part of the machine as it was.
-/
namespace Sys2Proof.Machine

/-! ### State.setCore -/

@[simp] theorem setCore_clusters (s : State) (c : Nat) (x : Core) : (s.setCore c x).clusters = s.clusters := rfl
@[simp] theorem setCore_dies (s : State) (c : Nat) (x : Core) : (s.setCore c x).dies = s.dies := rfl
@[simp] theorem setCore_fns (s : State) (c : Nat) (x : Core) : (s.setCore c x).fns = s.fns := rfl
@[simp] theorem setCore_launches (s : State) (c : Nat) (x : Core) : (s.setCore c x).launches = s.launches := rfl
@[simp] theorem setCore_objects (s : State) (c : Nat) (x : Core) : (s.setCore c x).objects = s.objects := rfl
@[simp] theorem setCore_links (s : State) (c : Nat) (x : Core) : (s.setCore c x).links = s.links := rfl
@[simp] theorem setCore_fabric (s : State) (c : Nat) (x : Core) : (s.setCore c x).fabric = s.fabric := rfl
@[simp] theorem setCore_contribs (s : State) (c : Nat) (x : Core) : (s.setCore c x).contribs = s.contribs := rfl
@[simp] theorem setCore_results (s : State) (c : Nat) (x : Core) : (s.setCore c x).results = s.results := rfl
@[simp] theorem setCore_rcopies (s : State) (c : Nat) (x : Core) : (s.setCore c x).rcopies = s.rcopies := rfl
@[simp] theorem setCore_lateSent (s : State) (c : Nat) (x : Core) : (s.setCore c x).lateSent = s.lateSent := rfl
@[simp] theorem setCore_lateMtx (s : State) (c : Nat) (x : Core) : (s.setCore c x).lateMtx = s.lateMtx := rfl
@[simp] theorem setCore_combiner (s : State) (c : Nat) (x : Core) : (s.setCore c x).combiner = s.combiner := rfl
@[simp] theorem setCore_fly (s : State) (c : Nat) (x : Core) : (s.setCore c x).fly = s.fly := rfl
@[simp] theorem setCore_hostMem (s : State) (c : Nat) (x : Core) : (s.setCore c x).hostMem = s.hostMem := rfl
@[simp] theorem setCore_hostPoison (s : State) (c : Nat) (x : Core) : (s.setCore c x).hostPoison = s.hostPoison := rfl
@[simp] theorem setCore_hostReqs (s : State) (c : Nat) (x : Core) : (s.setCore c x).hostReqs = s.hostReqs := rfl
@[simp] theorem setCore_taskEnds (s : State) (c : Nat) (x : Core) : (s.setCore c x).taskEnds = s.taskEnds := rfl
@[simp] theorem setCore_reports (s : State) (c : Nat) (x : Core) : (s.setCore c x).reports = s.reports := rfl
@[simp] theorem setCore_pf (s : State) (c : Nat) (x : Core) : (s.setCore c x).pf = s.pf := rfl
@[simp] theorem setCore_readReg (s : State) (c : Nat) (x : Core) : (s.setCore c x).readReg = s.readReg := rfl
@[simp] theorem setCore_ckpt (s : State) (c : Nat) (x : Core) : (s.setCore c x).ckpt = s.ckpt := rfl
@[simp] theorem setCore_tier (s : State) (c : Nat) (x : Core) : (s.setCore c x).tier = s.tier := rfl
@[simp] theorem setCore_trust (s : State) (c : Nat) (x : Core) : (s.setCore c x).trust = s.trust := rfl
@[simp] theorem setCore_fixlat (s : State) (c : Nat) (x : Core) : (s.setCore c x).fixlat = s.fixlat := rfl
@[simp] theorem setCore_d3hot (s : State) (c : Nat) (x : Core) : (s.setCore c x).d3hot = s.d3hot := rfl
@[simp] theorem setCore_limiting (s : State) (c : Nat) (x : Core) : (s.setCore c x).limiting = s.limiting := rfl
@[simp] theorem setCore_lastCluster (s : State) (c : Nat) (x : Core) : (s.setCore c x).lastCluster = s.lastCluster := rfl
@[simp] theorem setCore_gridSeq (s : State) (c : Nat) (x : Core) : (s.setCore c x).gridSeq = s.gridSeq := rfl
@[simp] theorem setCore_uidSeq (s : State) (c : Nat) (x : Core) : (s.setCore c x).uidSeq = s.uidSeq := rfl
@[simp] theorem setCore_reqSeq (s : State) (c : Nat) (x : Core) : (s.setCore c x).reqSeq = s.reqSeq := rfl
@[simp] theorem setCore_now (s : State) (c : Nat) (x : Core) : (s.setCore c x).now = s.now := rfl
@[simp] theorem setCore_stepNo (s : State) (c : Nat) (x : Core) : (s.setCore c x).stepNo = s.stepNo := rfl
@[simp] theorem setCore_free (s : State) (c : Nat) (x : Core) : (s.setCore c x).free = s.free := rfl
@[simp] theorem setCore_script (s : State) (c : Nat) (x : Core) : (s.setCore c x).script = s.script := rfl
@[simp] theorem setCore_cur (s : State) (c : Nat) (x : Core) : (s.setCore c x).cur = s.cur := rfl
@[simp] theorem setCore_mark (s : State) (c : Nat) (x : Core) : (s.setCore c x).mark = s.mark := rfl
@[simp] theorem setCore_pre (s : State) (c : Nat) (x : Core) : (s.setCore c x).pre = s.pre := rfl

/-! ### State.modCore -/

@[simp] theorem modCore_clusters (s : State) (c : Nat) (f : Core → Core) : (s.modCore c f).clusters = s.clusters := rfl
@[simp] theorem modCore_dies (s : State) (c : Nat) (f : Core → Core) : (s.modCore c f).dies = s.dies := rfl
@[simp] theorem modCore_fns (s : State) (c : Nat) (f : Core → Core) : (s.modCore c f).fns = s.fns := rfl
@[simp] theorem modCore_launches (s : State) (c : Nat) (f : Core → Core) : (s.modCore c f).launches = s.launches := rfl
@[simp] theorem modCore_objects (s : State) (c : Nat) (f : Core → Core) : (s.modCore c f).objects = s.objects := rfl
@[simp] theorem modCore_links (s : State) (c : Nat) (f : Core → Core) : (s.modCore c f).links = s.links := rfl
@[simp] theorem modCore_fabric (s : State) (c : Nat) (f : Core → Core) : (s.modCore c f).fabric = s.fabric := rfl
@[simp] theorem modCore_contribs (s : State) (c : Nat) (f : Core → Core) : (s.modCore c f).contribs = s.contribs := rfl
@[simp] theorem modCore_results (s : State) (c : Nat) (f : Core → Core) : (s.modCore c f).results = s.results := rfl
@[simp] theorem modCore_rcopies (s : State) (c : Nat) (f : Core → Core) : (s.modCore c f).rcopies = s.rcopies := rfl
@[simp] theorem modCore_lateSent (s : State) (c : Nat) (f : Core → Core) : (s.modCore c f).lateSent = s.lateSent := rfl
@[simp] theorem modCore_lateMtx (s : State) (c : Nat) (f : Core → Core) : (s.modCore c f).lateMtx = s.lateMtx := rfl
@[simp] theorem modCore_combiner (s : State) (c : Nat) (f : Core → Core) : (s.modCore c f).combiner = s.combiner := rfl
@[simp] theorem modCore_fly (s : State) (c : Nat) (f : Core → Core) : (s.modCore c f).fly = s.fly := rfl
@[simp] theorem modCore_hostMem (s : State) (c : Nat) (f : Core → Core) : (s.modCore c f).hostMem = s.hostMem := rfl
@[simp] theorem modCore_hostPoison (s : State) (c : Nat) (f : Core → Core) : (s.modCore c f).hostPoison = s.hostPoison := rfl
@[simp] theorem modCore_hostReqs (s : State) (c : Nat) (f : Core → Core) : (s.modCore c f).hostReqs = s.hostReqs := rfl
@[simp] theorem modCore_taskEnds (s : State) (c : Nat) (f : Core → Core) : (s.modCore c f).taskEnds = s.taskEnds := rfl
@[simp] theorem modCore_reports (s : State) (c : Nat) (f : Core → Core) : (s.modCore c f).reports = s.reports := rfl
@[simp] theorem modCore_pf (s : State) (c : Nat) (f : Core → Core) : (s.modCore c f).pf = s.pf := rfl
@[simp] theorem modCore_readReg (s : State) (c : Nat) (f : Core → Core) : (s.modCore c f).readReg = s.readReg := rfl
@[simp] theorem modCore_ckpt (s : State) (c : Nat) (f : Core → Core) : (s.modCore c f).ckpt = s.ckpt := rfl
@[simp] theorem modCore_tier (s : State) (c : Nat) (f : Core → Core) : (s.modCore c f).tier = s.tier := rfl
@[simp] theorem modCore_trust (s : State) (c : Nat) (f : Core → Core) : (s.modCore c f).trust = s.trust := rfl
@[simp] theorem modCore_fixlat (s : State) (c : Nat) (f : Core → Core) : (s.modCore c f).fixlat = s.fixlat := rfl
@[simp] theorem modCore_d3hot (s : State) (c : Nat) (f : Core → Core) : (s.modCore c f).d3hot = s.d3hot := rfl
@[simp] theorem modCore_limiting (s : State) (c : Nat) (f : Core → Core) : (s.modCore c f).limiting = s.limiting := rfl
@[simp] theorem modCore_lastCluster (s : State) (c : Nat) (f : Core → Core) : (s.modCore c f).lastCluster = s.lastCluster := rfl
@[simp] theorem modCore_gridSeq (s : State) (c : Nat) (f : Core → Core) : (s.modCore c f).gridSeq = s.gridSeq := rfl
@[simp] theorem modCore_uidSeq (s : State) (c : Nat) (f : Core → Core) : (s.modCore c f).uidSeq = s.uidSeq := rfl
@[simp] theorem modCore_reqSeq (s : State) (c : Nat) (f : Core → Core) : (s.modCore c f).reqSeq = s.reqSeq := rfl
@[simp] theorem modCore_now (s : State) (c : Nat) (f : Core → Core) : (s.modCore c f).now = s.now := rfl
@[simp] theorem modCore_stepNo (s : State) (c : Nat) (f : Core → Core) : (s.modCore c f).stepNo = s.stepNo := rfl
@[simp] theorem modCore_free (s : State) (c : Nat) (f : Core → Core) : (s.modCore c f).free = s.free := rfl
@[simp] theorem modCore_script (s : State) (c : Nat) (f : Core → Core) : (s.modCore c f).script = s.script := rfl
@[simp] theorem modCore_cur (s : State) (c : Nat) (f : Core → Core) : (s.modCore c f).cur = s.cur := rfl
@[simp] theorem modCore_mark (s : State) (c : Nat) (f : Core → Core) : (s.modCore c f).mark = s.mark := rfl
@[simp] theorem modCore_pre (s : State) (c : Nat) (f : Core → Core) : (s.modCore c f).pre = s.pre := rfl

/-! ### State.modGroup -/

@[simp] theorem modGroup_clusters (s : State) (c g : Nat) (f : Group → Group) : (s.modGroup c g f).clusters = s.clusters := rfl
@[simp] theorem modGroup_dies (s : State) (c g : Nat) (f : Group → Group) : (s.modGroup c g f).dies = s.dies := rfl
@[simp] theorem modGroup_fns (s : State) (c g : Nat) (f : Group → Group) : (s.modGroup c g f).fns = s.fns := rfl
@[simp] theorem modGroup_launches (s : State) (c g : Nat) (f : Group → Group) : (s.modGroup c g f).launches = s.launches := rfl
@[simp] theorem modGroup_objects (s : State) (c g : Nat) (f : Group → Group) : (s.modGroup c g f).objects = s.objects := rfl
@[simp] theorem modGroup_links (s : State) (c g : Nat) (f : Group → Group) : (s.modGroup c g f).links = s.links := rfl
@[simp] theorem modGroup_fabric (s : State) (c g : Nat) (f : Group → Group) : (s.modGroup c g f).fabric = s.fabric := rfl
@[simp] theorem modGroup_contribs (s : State) (c g : Nat) (f : Group → Group) : (s.modGroup c g f).contribs = s.contribs := rfl
@[simp] theorem modGroup_results (s : State) (c g : Nat) (f : Group → Group) : (s.modGroup c g f).results = s.results := rfl
@[simp] theorem modGroup_rcopies (s : State) (c g : Nat) (f : Group → Group) : (s.modGroup c g f).rcopies = s.rcopies := rfl
@[simp] theorem modGroup_lateSent (s : State) (c g : Nat) (f : Group → Group) : (s.modGroup c g f).lateSent = s.lateSent := rfl
@[simp] theorem modGroup_lateMtx (s : State) (c g : Nat) (f : Group → Group) : (s.modGroup c g f).lateMtx = s.lateMtx := rfl
@[simp] theorem modGroup_combiner (s : State) (c g : Nat) (f : Group → Group) : (s.modGroup c g f).combiner = s.combiner := rfl
@[simp] theorem modGroup_fly (s : State) (c g : Nat) (f : Group → Group) : (s.modGroup c g f).fly = s.fly := rfl
@[simp] theorem modGroup_hostMem (s : State) (c g : Nat) (f : Group → Group) : (s.modGroup c g f).hostMem = s.hostMem := rfl
@[simp] theorem modGroup_hostPoison (s : State) (c g : Nat) (f : Group → Group) : (s.modGroup c g f).hostPoison = s.hostPoison := rfl
@[simp] theorem modGroup_hostReqs (s : State) (c g : Nat) (f : Group → Group) : (s.modGroup c g f).hostReqs = s.hostReqs := rfl
@[simp] theorem modGroup_taskEnds (s : State) (c g : Nat) (f : Group → Group) : (s.modGroup c g f).taskEnds = s.taskEnds := rfl
@[simp] theorem modGroup_reports (s : State) (c g : Nat) (f : Group → Group) : (s.modGroup c g f).reports = s.reports := rfl
@[simp] theorem modGroup_pf (s : State) (c g : Nat) (f : Group → Group) : (s.modGroup c g f).pf = s.pf := rfl
@[simp] theorem modGroup_readReg (s : State) (c g : Nat) (f : Group → Group) : (s.modGroup c g f).readReg = s.readReg := rfl
@[simp] theorem modGroup_ckpt (s : State) (c g : Nat) (f : Group → Group) : (s.modGroup c g f).ckpt = s.ckpt := rfl
@[simp] theorem modGroup_tier (s : State) (c g : Nat) (f : Group → Group) : (s.modGroup c g f).tier = s.tier := rfl
@[simp] theorem modGroup_trust (s : State) (c g : Nat) (f : Group → Group) : (s.modGroup c g f).trust = s.trust := rfl
@[simp] theorem modGroup_fixlat (s : State) (c g : Nat) (f : Group → Group) : (s.modGroup c g f).fixlat = s.fixlat := rfl
@[simp] theorem modGroup_d3hot (s : State) (c g : Nat) (f : Group → Group) : (s.modGroup c g f).d3hot = s.d3hot := rfl
@[simp] theorem modGroup_limiting (s : State) (c g : Nat) (f : Group → Group) : (s.modGroup c g f).limiting = s.limiting := rfl
@[simp] theorem modGroup_lastCluster (s : State) (c g : Nat) (f : Group → Group) : (s.modGroup c g f).lastCluster = s.lastCluster := rfl
@[simp] theorem modGroup_gridSeq (s : State) (c g : Nat) (f : Group → Group) : (s.modGroup c g f).gridSeq = s.gridSeq := rfl
@[simp] theorem modGroup_uidSeq (s : State) (c g : Nat) (f : Group → Group) : (s.modGroup c g f).uidSeq = s.uidSeq := rfl
@[simp] theorem modGroup_reqSeq (s : State) (c g : Nat) (f : Group → Group) : (s.modGroup c g f).reqSeq = s.reqSeq := rfl
@[simp] theorem modGroup_now (s : State) (c g : Nat) (f : Group → Group) : (s.modGroup c g f).now = s.now := rfl
@[simp] theorem modGroup_stepNo (s : State) (c g : Nat) (f : Group → Group) : (s.modGroup c g f).stepNo = s.stepNo := rfl
@[simp] theorem modGroup_free (s : State) (c g : Nat) (f : Group → Group) : (s.modGroup c g f).free = s.free := rfl
@[simp] theorem modGroup_script (s : State) (c g : Nat) (f : Group → Group) : (s.modGroup c g f).script = s.script := rfl
@[simp] theorem modGroup_cur (s : State) (c g : Nat) (f : Group → Group) : (s.modGroup c g f).cur = s.cur := rfl
@[simp] theorem modGroup_mark (s : State) (c g : Nat) (f : Group → Group) : (s.modGroup c g f).mark = s.mark := rfl
@[simp] theorem modGroup_pre (s : State) (c g : Nat) (f : Group → Group) : (s.modGroup c g f).pre = s.pre := rfl

/-! ### State.modBlock -/

@[simp] theorem modBlock_clusters (s : State) (c b : Nat) (f : Block → Block) : (s.modBlock c b f).clusters = s.clusters := rfl
@[simp] theorem modBlock_dies (s : State) (c b : Nat) (f : Block → Block) : (s.modBlock c b f).dies = s.dies := rfl
@[simp] theorem modBlock_fns (s : State) (c b : Nat) (f : Block → Block) : (s.modBlock c b f).fns = s.fns := rfl
@[simp] theorem modBlock_launches (s : State) (c b : Nat) (f : Block → Block) : (s.modBlock c b f).launches = s.launches := rfl
@[simp] theorem modBlock_objects (s : State) (c b : Nat) (f : Block → Block) : (s.modBlock c b f).objects = s.objects := rfl
@[simp] theorem modBlock_links (s : State) (c b : Nat) (f : Block → Block) : (s.modBlock c b f).links = s.links := rfl
@[simp] theorem modBlock_fabric (s : State) (c b : Nat) (f : Block → Block) : (s.modBlock c b f).fabric = s.fabric := rfl
@[simp] theorem modBlock_contribs (s : State) (c b : Nat) (f : Block → Block) : (s.modBlock c b f).contribs = s.contribs := rfl
@[simp] theorem modBlock_results (s : State) (c b : Nat) (f : Block → Block) : (s.modBlock c b f).results = s.results := rfl
@[simp] theorem modBlock_rcopies (s : State) (c b : Nat) (f : Block → Block) : (s.modBlock c b f).rcopies = s.rcopies := rfl
@[simp] theorem modBlock_lateSent (s : State) (c b : Nat) (f : Block → Block) : (s.modBlock c b f).lateSent = s.lateSent := rfl
@[simp] theorem modBlock_lateMtx (s : State) (c b : Nat) (f : Block → Block) : (s.modBlock c b f).lateMtx = s.lateMtx := rfl
@[simp] theorem modBlock_combiner (s : State) (c b : Nat) (f : Block → Block) : (s.modBlock c b f).combiner = s.combiner := rfl
@[simp] theorem modBlock_fly (s : State) (c b : Nat) (f : Block → Block) : (s.modBlock c b f).fly = s.fly := rfl
@[simp] theorem modBlock_hostMem (s : State) (c b : Nat) (f : Block → Block) : (s.modBlock c b f).hostMem = s.hostMem := rfl
@[simp] theorem modBlock_hostPoison (s : State) (c b : Nat) (f : Block → Block) : (s.modBlock c b f).hostPoison = s.hostPoison := rfl
@[simp] theorem modBlock_hostReqs (s : State) (c b : Nat) (f : Block → Block) : (s.modBlock c b f).hostReqs = s.hostReqs := rfl
@[simp] theorem modBlock_taskEnds (s : State) (c b : Nat) (f : Block → Block) : (s.modBlock c b f).taskEnds = s.taskEnds := rfl
@[simp] theorem modBlock_reports (s : State) (c b : Nat) (f : Block → Block) : (s.modBlock c b f).reports = s.reports := rfl
@[simp] theorem modBlock_pf (s : State) (c b : Nat) (f : Block → Block) : (s.modBlock c b f).pf = s.pf := rfl
@[simp] theorem modBlock_readReg (s : State) (c b : Nat) (f : Block → Block) : (s.modBlock c b f).readReg = s.readReg := rfl
@[simp] theorem modBlock_ckpt (s : State) (c b : Nat) (f : Block → Block) : (s.modBlock c b f).ckpt = s.ckpt := rfl
@[simp] theorem modBlock_tier (s : State) (c b : Nat) (f : Block → Block) : (s.modBlock c b f).tier = s.tier := rfl
@[simp] theorem modBlock_trust (s : State) (c b : Nat) (f : Block → Block) : (s.modBlock c b f).trust = s.trust := rfl
@[simp] theorem modBlock_fixlat (s : State) (c b : Nat) (f : Block → Block) : (s.modBlock c b f).fixlat = s.fixlat := rfl
@[simp] theorem modBlock_d3hot (s : State) (c b : Nat) (f : Block → Block) : (s.modBlock c b f).d3hot = s.d3hot := rfl
@[simp] theorem modBlock_limiting (s : State) (c b : Nat) (f : Block → Block) : (s.modBlock c b f).limiting = s.limiting := rfl
@[simp] theorem modBlock_lastCluster (s : State) (c b : Nat) (f : Block → Block) : (s.modBlock c b f).lastCluster = s.lastCluster := rfl
@[simp] theorem modBlock_gridSeq (s : State) (c b : Nat) (f : Block → Block) : (s.modBlock c b f).gridSeq = s.gridSeq := rfl
@[simp] theorem modBlock_uidSeq (s : State) (c b : Nat) (f : Block → Block) : (s.modBlock c b f).uidSeq = s.uidSeq := rfl
@[simp] theorem modBlock_reqSeq (s : State) (c b : Nat) (f : Block → Block) : (s.modBlock c b f).reqSeq = s.reqSeq := rfl
@[simp] theorem modBlock_now (s : State) (c b : Nat) (f : Block → Block) : (s.modBlock c b f).now = s.now := rfl
@[simp] theorem modBlock_stepNo (s : State) (c b : Nat) (f : Block → Block) : (s.modBlock c b f).stepNo = s.stepNo := rfl
@[simp] theorem modBlock_free (s : State) (c b : Nat) (f : Block → Block) : (s.modBlock c b f).free = s.free := rfl
@[simp] theorem modBlock_script (s : State) (c b : Nat) (f : Block → Block) : (s.modBlock c b f).script = s.script := rfl
@[simp] theorem modBlock_cur (s : State) (c b : Nat) (f : Block → Block) : (s.modBlock c b f).cur = s.cur := rfl
@[simp] theorem modBlock_mark (s : State) (c b : Nat) (f : Block → Block) : (s.modBlock c b f).mark = s.mark := rfl
@[simp] theorem modBlock_pre (s : State) (c b : Nat) (f : Block → Block) : (s.modBlock c b f).pre = s.pre := rfl

/-! ### State.modDie -/

@[simp] theorem modDie_cores (s : State) (d : Nat) (f : Die → Die) : (s.modDie d f).cores = s.cores := rfl
@[simp] theorem modDie_clusters (s : State) (d : Nat) (f : Die → Die) : (s.modDie d f).clusters = s.clusters := rfl
@[simp] theorem modDie_fns (s : State) (d : Nat) (f : Die → Die) : (s.modDie d f).fns = s.fns := rfl
@[simp] theorem modDie_launches (s : State) (d : Nat) (f : Die → Die) : (s.modDie d f).launches = s.launches := rfl
@[simp] theorem modDie_objects (s : State) (d : Nat) (f : Die → Die) : (s.modDie d f).objects = s.objects := rfl
@[simp] theorem modDie_links (s : State) (d : Nat) (f : Die → Die) : (s.modDie d f).links = s.links := rfl
@[simp] theorem modDie_fabric (s : State) (d : Nat) (f : Die → Die) : (s.modDie d f).fabric = s.fabric := rfl
@[simp] theorem modDie_contribs (s : State) (d : Nat) (f : Die → Die) : (s.modDie d f).contribs = s.contribs := rfl
@[simp] theorem modDie_results (s : State) (d : Nat) (f : Die → Die) : (s.modDie d f).results = s.results := rfl
@[simp] theorem modDie_rcopies (s : State) (d : Nat) (f : Die → Die) : (s.modDie d f).rcopies = s.rcopies := rfl
@[simp] theorem modDie_lateSent (s : State) (d : Nat) (f : Die → Die) : (s.modDie d f).lateSent = s.lateSent := rfl
@[simp] theorem modDie_lateMtx (s : State) (d : Nat) (f : Die → Die) : (s.modDie d f).lateMtx = s.lateMtx := rfl
@[simp] theorem modDie_combiner (s : State) (d : Nat) (f : Die → Die) : (s.modDie d f).combiner = s.combiner := rfl
@[simp] theorem modDie_fly (s : State) (d : Nat) (f : Die → Die) : (s.modDie d f).fly = s.fly := rfl
@[simp] theorem modDie_hostMem (s : State) (d : Nat) (f : Die → Die) : (s.modDie d f).hostMem = s.hostMem := rfl
@[simp] theorem modDie_hostPoison (s : State) (d : Nat) (f : Die → Die) : (s.modDie d f).hostPoison = s.hostPoison := rfl
@[simp] theorem modDie_hostReqs (s : State) (d : Nat) (f : Die → Die) : (s.modDie d f).hostReqs = s.hostReqs := rfl
@[simp] theorem modDie_taskEnds (s : State) (d : Nat) (f : Die → Die) : (s.modDie d f).taskEnds = s.taskEnds := rfl
@[simp] theorem modDie_reports (s : State) (d : Nat) (f : Die → Die) : (s.modDie d f).reports = s.reports := rfl
@[simp] theorem modDie_pf (s : State) (d : Nat) (f : Die → Die) : (s.modDie d f).pf = s.pf := rfl
@[simp] theorem modDie_readReg (s : State) (d : Nat) (f : Die → Die) : (s.modDie d f).readReg = s.readReg := rfl
@[simp] theorem modDie_ckpt (s : State) (d : Nat) (f : Die → Die) : (s.modDie d f).ckpt = s.ckpt := rfl
@[simp] theorem modDie_tier (s : State) (d : Nat) (f : Die → Die) : (s.modDie d f).tier = s.tier := rfl
@[simp] theorem modDie_trust (s : State) (d : Nat) (f : Die → Die) : (s.modDie d f).trust = s.trust := rfl
@[simp] theorem modDie_fixlat (s : State) (d : Nat) (f : Die → Die) : (s.modDie d f).fixlat = s.fixlat := rfl
@[simp] theorem modDie_d3hot (s : State) (d : Nat) (f : Die → Die) : (s.modDie d f).d3hot = s.d3hot := rfl
@[simp] theorem modDie_limiting (s : State) (d : Nat) (f : Die → Die) : (s.modDie d f).limiting = s.limiting := rfl
@[simp] theorem modDie_lastCluster (s : State) (d : Nat) (f : Die → Die) : (s.modDie d f).lastCluster = s.lastCluster := rfl
@[simp] theorem modDie_gridSeq (s : State) (d : Nat) (f : Die → Die) : (s.modDie d f).gridSeq = s.gridSeq := rfl
@[simp] theorem modDie_uidSeq (s : State) (d : Nat) (f : Die → Die) : (s.modDie d f).uidSeq = s.uidSeq := rfl
@[simp] theorem modDie_reqSeq (s : State) (d : Nat) (f : Die → Die) : (s.modDie d f).reqSeq = s.reqSeq := rfl
@[simp] theorem modDie_now (s : State) (d : Nat) (f : Die → Die) : (s.modDie d f).now = s.now := rfl
@[simp] theorem modDie_stepNo (s : State) (d : Nat) (f : Die → Die) : (s.modDie d f).stepNo = s.stepNo := rfl
@[simp] theorem modDie_free (s : State) (d : Nat) (f : Die → Die) : (s.modDie d f).free = s.free := rfl
@[simp] theorem modDie_script (s : State) (d : Nat) (f : Die → Die) : (s.modDie d f).script = s.script := rfl
@[simp] theorem modDie_cur (s : State) (d : Nat) (f : Die → Die) : (s.modDie d f).cur = s.cur := rfl
@[simp] theorem modDie_mark (s : State) (d : Nat) (f : Die → Die) : (s.modDie d f).mark = s.mark := rfl
@[simp] theorem modDie_pre (s : State) (d : Nat) (f : Die → Die) : (s.modDie d f).pre = s.pre := rfl

/-! ### State.modStop -/

@[simp] theorem modStop_cores (s : State) (d t : Nat) (f : Stop → Stop) : (s.modStop d t f).cores = s.cores := rfl
@[simp] theorem modStop_clusters (s : State) (d t : Nat) (f : Stop → Stop) : (s.modStop d t f).clusters = s.clusters := rfl
@[simp] theorem modStop_fns (s : State) (d t : Nat) (f : Stop → Stop) : (s.modStop d t f).fns = s.fns := rfl
@[simp] theorem modStop_launches (s : State) (d t : Nat) (f : Stop → Stop) : (s.modStop d t f).launches = s.launches := rfl
@[simp] theorem modStop_objects (s : State) (d t : Nat) (f : Stop → Stop) : (s.modStop d t f).objects = s.objects := rfl
@[simp] theorem modStop_links (s : State) (d t : Nat) (f : Stop → Stop) : (s.modStop d t f).links = s.links := rfl
@[simp] theorem modStop_fabric (s : State) (d t : Nat) (f : Stop → Stop) : (s.modStop d t f).fabric = s.fabric := rfl
@[simp] theorem modStop_contribs (s : State) (d t : Nat) (f : Stop → Stop) : (s.modStop d t f).contribs = s.contribs := rfl
@[simp] theorem modStop_results (s : State) (d t : Nat) (f : Stop → Stop) : (s.modStop d t f).results = s.results := rfl
@[simp] theorem modStop_rcopies (s : State) (d t : Nat) (f : Stop → Stop) : (s.modStop d t f).rcopies = s.rcopies := rfl
@[simp] theorem modStop_lateSent (s : State) (d t : Nat) (f : Stop → Stop) : (s.modStop d t f).lateSent = s.lateSent := rfl
@[simp] theorem modStop_lateMtx (s : State) (d t : Nat) (f : Stop → Stop) : (s.modStop d t f).lateMtx = s.lateMtx := rfl
@[simp] theorem modStop_combiner (s : State) (d t : Nat) (f : Stop → Stop) : (s.modStop d t f).combiner = s.combiner := rfl
@[simp] theorem modStop_fly (s : State) (d t : Nat) (f : Stop → Stop) : (s.modStop d t f).fly = s.fly := rfl
@[simp] theorem modStop_hostMem (s : State) (d t : Nat) (f : Stop → Stop) : (s.modStop d t f).hostMem = s.hostMem := rfl
@[simp] theorem modStop_hostPoison (s : State) (d t : Nat) (f : Stop → Stop) : (s.modStop d t f).hostPoison = s.hostPoison := rfl
@[simp] theorem modStop_hostReqs (s : State) (d t : Nat) (f : Stop → Stop) : (s.modStop d t f).hostReqs = s.hostReqs := rfl
@[simp] theorem modStop_taskEnds (s : State) (d t : Nat) (f : Stop → Stop) : (s.modStop d t f).taskEnds = s.taskEnds := rfl
@[simp] theorem modStop_reports (s : State) (d t : Nat) (f : Stop → Stop) : (s.modStop d t f).reports = s.reports := rfl
@[simp] theorem modStop_pf (s : State) (d t : Nat) (f : Stop → Stop) : (s.modStop d t f).pf = s.pf := rfl
@[simp] theorem modStop_readReg (s : State) (d t : Nat) (f : Stop → Stop) : (s.modStop d t f).readReg = s.readReg := rfl
@[simp] theorem modStop_ckpt (s : State) (d t : Nat) (f : Stop → Stop) : (s.modStop d t f).ckpt = s.ckpt := rfl
@[simp] theorem modStop_tier (s : State) (d t : Nat) (f : Stop → Stop) : (s.modStop d t f).tier = s.tier := rfl
@[simp] theorem modStop_trust (s : State) (d t : Nat) (f : Stop → Stop) : (s.modStop d t f).trust = s.trust := rfl
@[simp] theorem modStop_fixlat (s : State) (d t : Nat) (f : Stop → Stop) : (s.modStop d t f).fixlat = s.fixlat := rfl
@[simp] theorem modStop_d3hot (s : State) (d t : Nat) (f : Stop → Stop) : (s.modStop d t f).d3hot = s.d3hot := rfl
@[simp] theorem modStop_limiting (s : State) (d t : Nat) (f : Stop → Stop) : (s.modStop d t f).limiting = s.limiting := rfl
@[simp] theorem modStop_lastCluster (s : State) (d t : Nat) (f : Stop → Stop) : (s.modStop d t f).lastCluster = s.lastCluster := rfl
@[simp] theorem modStop_gridSeq (s : State) (d t : Nat) (f : Stop → Stop) : (s.modStop d t f).gridSeq = s.gridSeq := rfl
@[simp] theorem modStop_uidSeq (s : State) (d t : Nat) (f : Stop → Stop) : (s.modStop d t f).uidSeq = s.uidSeq := rfl
@[simp] theorem modStop_reqSeq (s : State) (d t : Nat) (f : Stop → Stop) : (s.modStop d t f).reqSeq = s.reqSeq := rfl
@[simp] theorem modStop_now (s : State) (d t : Nat) (f : Stop → Stop) : (s.modStop d t f).now = s.now := rfl
@[simp] theorem modStop_stepNo (s : State) (d t : Nat) (f : Stop → Stop) : (s.modStop d t f).stepNo = s.stepNo := rfl
@[simp] theorem modStop_free (s : State) (d t : Nat) (f : Stop → Stop) : (s.modStop d t f).free = s.free := rfl
@[simp] theorem modStop_script (s : State) (d t : Nat) (f : Stop → Stop) : (s.modStop d t f).script = s.script := rfl
@[simp] theorem modStop_cur (s : State) (d t : Nat) (f : Stop → Stop) : (s.modStop d t f).cur = s.cur := rfl
@[simp] theorem modStop_mark (s : State) (d t : Nat) (f : Stop → Stop) : (s.modStop d t f).mark = s.mark := rfl
@[simp] theorem modStop_pre (s : State) (d t : Nat) (f : Stop → Stop) : (s.modStop d t f).pre = s.pre := rfl

/-! ### State.modCluster -/

@[simp] theorem modCluster_cores (s : State) (k : Nat) (f : Cluster → Cluster) : (s.modCluster k f).cores = s.cores := rfl
@[simp] theorem modCluster_dies (s : State) (k : Nat) (f : Cluster → Cluster) : (s.modCluster k f).dies = s.dies := rfl
@[simp] theorem modCluster_fns (s : State) (k : Nat) (f : Cluster → Cluster) : (s.modCluster k f).fns = s.fns := rfl
@[simp] theorem modCluster_launches (s : State) (k : Nat) (f : Cluster → Cluster) : (s.modCluster k f).launches = s.launches := rfl
@[simp] theorem modCluster_objects (s : State) (k : Nat) (f : Cluster → Cluster) : (s.modCluster k f).objects = s.objects := rfl
@[simp] theorem modCluster_links (s : State) (k : Nat) (f : Cluster → Cluster) : (s.modCluster k f).links = s.links := rfl
@[simp] theorem modCluster_fabric (s : State) (k : Nat) (f : Cluster → Cluster) : (s.modCluster k f).fabric = s.fabric := rfl
@[simp] theorem modCluster_contribs (s : State) (k : Nat) (f : Cluster → Cluster) : (s.modCluster k f).contribs = s.contribs := rfl
@[simp] theorem modCluster_results (s : State) (k : Nat) (f : Cluster → Cluster) : (s.modCluster k f).results = s.results := rfl
@[simp] theorem modCluster_rcopies (s : State) (k : Nat) (f : Cluster → Cluster) : (s.modCluster k f).rcopies = s.rcopies := rfl
@[simp] theorem modCluster_lateSent (s : State) (k : Nat) (f : Cluster → Cluster) : (s.modCluster k f).lateSent = s.lateSent := rfl
@[simp] theorem modCluster_lateMtx (s : State) (k : Nat) (f : Cluster → Cluster) : (s.modCluster k f).lateMtx = s.lateMtx := rfl
@[simp] theorem modCluster_combiner (s : State) (k : Nat) (f : Cluster → Cluster) : (s.modCluster k f).combiner = s.combiner := rfl
@[simp] theorem modCluster_fly (s : State) (k : Nat) (f : Cluster → Cluster) : (s.modCluster k f).fly = s.fly := rfl
@[simp] theorem modCluster_hostMem (s : State) (k : Nat) (f : Cluster → Cluster) : (s.modCluster k f).hostMem = s.hostMem := rfl
@[simp] theorem modCluster_hostPoison (s : State) (k : Nat) (f : Cluster → Cluster) : (s.modCluster k f).hostPoison = s.hostPoison := rfl
@[simp] theorem modCluster_hostReqs (s : State) (k : Nat) (f : Cluster → Cluster) : (s.modCluster k f).hostReqs = s.hostReqs := rfl
@[simp] theorem modCluster_taskEnds (s : State) (k : Nat) (f : Cluster → Cluster) : (s.modCluster k f).taskEnds = s.taskEnds := rfl
@[simp] theorem modCluster_reports (s : State) (k : Nat) (f : Cluster → Cluster) : (s.modCluster k f).reports = s.reports := rfl
@[simp] theorem modCluster_pf (s : State) (k : Nat) (f : Cluster → Cluster) : (s.modCluster k f).pf = s.pf := rfl
@[simp] theorem modCluster_readReg (s : State) (k : Nat) (f : Cluster → Cluster) : (s.modCluster k f).readReg = s.readReg := rfl
@[simp] theorem modCluster_ckpt (s : State) (k : Nat) (f : Cluster → Cluster) : (s.modCluster k f).ckpt = s.ckpt := rfl
@[simp] theorem modCluster_tier (s : State) (k : Nat) (f : Cluster → Cluster) : (s.modCluster k f).tier = s.tier := rfl
@[simp] theorem modCluster_trust (s : State) (k : Nat) (f : Cluster → Cluster) : (s.modCluster k f).trust = s.trust := rfl
@[simp] theorem modCluster_fixlat (s : State) (k : Nat) (f : Cluster → Cluster) : (s.modCluster k f).fixlat = s.fixlat := rfl
@[simp] theorem modCluster_d3hot (s : State) (k : Nat) (f : Cluster → Cluster) : (s.modCluster k f).d3hot = s.d3hot := rfl
@[simp] theorem modCluster_limiting (s : State) (k : Nat) (f : Cluster → Cluster) : (s.modCluster k f).limiting = s.limiting := rfl
@[simp] theorem modCluster_lastCluster (s : State) (k : Nat) (f : Cluster → Cluster) : (s.modCluster k f).lastCluster = s.lastCluster := rfl
@[simp] theorem modCluster_gridSeq (s : State) (k : Nat) (f : Cluster → Cluster) : (s.modCluster k f).gridSeq = s.gridSeq := rfl
@[simp] theorem modCluster_uidSeq (s : State) (k : Nat) (f : Cluster → Cluster) : (s.modCluster k f).uidSeq = s.uidSeq := rfl
@[simp] theorem modCluster_reqSeq (s : State) (k : Nat) (f : Cluster → Cluster) : (s.modCluster k f).reqSeq = s.reqSeq := rfl
@[simp] theorem modCluster_now (s : State) (k : Nat) (f : Cluster → Cluster) : (s.modCluster k f).now = s.now := rfl
@[simp] theorem modCluster_stepNo (s : State) (k : Nat) (f : Cluster → Cluster) : (s.modCluster k f).stepNo = s.stepNo := rfl
@[simp] theorem modCluster_free (s : State) (k : Nat) (f : Cluster → Cluster) : (s.modCluster k f).free = s.free := rfl
@[simp] theorem modCluster_script (s : State) (k : Nat) (f : Cluster → Cluster) : (s.modCluster k f).script = s.script := rfl
@[simp] theorem modCluster_cur (s : State) (k : Nat) (f : Cluster → Cluster) : (s.modCluster k f).cur = s.cur := rfl
@[simp] theorem modCluster_mark (s : State) (k : Nat) (f : Cluster → Cluster) : (s.modCluster k f).mark = s.mark := rfl
@[simp] theorem modCluster_pre (s : State) (k : Nat) (f : Cluster → Cluster) : (s.modCluster k f).pre = s.pre := rfl

/-! ### State.modFn -/

@[simp] theorem modFn_cores (s : State) (n : Nat) (f : Fn → Fn) : (s.modFn n f).cores = s.cores := rfl
@[simp] theorem modFn_clusters (s : State) (n : Nat) (f : Fn → Fn) : (s.modFn n f).clusters = s.clusters := rfl
@[simp] theorem modFn_dies (s : State) (n : Nat) (f : Fn → Fn) : (s.modFn n f).dies = s.dies := rfl
@[simp] theorem modFn_launches (s : State) (n : Nat) (f : Fn → Fn) : (s.modFn n f).launches = s.launches := rfl
@[simp] theorem modFn_objects (s : State) (n : Nat) (f : Fn → Fn) : (s.modFn n f).objects = s.objects := rfl
@[simp] theorem modFn_links (s : State) (n : Nat) (f : Fn → Fn) : (s.modFn n f).links = s.links := rfl
@[simp] theorem modFn_fabric (s : State) (n : Nat) (f : Fn → Fn) : (s.modFn n f).fabric = s.fabric := rfl
@[simp] theorem modFn_contribs (s : State) (n : Nat) (f : Fn → Fn) : (s.modFn n f).contribs = s.contribs := rfl
@[simp] theorem modFn_results (s : State) (n : Nat) (f : Fn → Fn) : (s.modFn n f).results = s.results := rfl
@[simp] theorem modFn_rcopies (s : State) (n : Nat) (f : Fn → Fn) : (s.modFn n f).rcopies = s.rcopies := rfl
@[simp] theorem modFn_lateSent (s : State) (n : Nat) (f : Fn → Fn) : (s.modFn n f).lateSent = s.lateSent := rfl
@[simp] theorem modFn_lateMtx (s : State) (n : Nat) (f : Fn → Fn) : (s.modFn n f).lateMtx = s.lateMtx := rfl
@[simp] theorem modFn_combiner (s : State) (n : Nat) (f : Fn → Fn) : (s.modFn n f).combiner = s.combiner := rfl
@[simp] theorem modFn_fly (s : State) (n : Nat) (f : Fn → Fn) : (s.modFn n f).fly = s.fly := rfl
@[simp] theorem modFn_hostMem (s : State) (n : Nat) (f : Fn → Fn) : (s.modFn n f).hostMem = s.hostMem := rfl
@[simp] theorem modFn_hostPoison (s : State) (n : Nat) (f : Fn → Fn) : (s.modFn n f).hostPoison = s.hostPoison := rfl
@[simp] theorem modFn_hostReqs (s : State) (n : Nat) (f : Fn → Fn) : (s.modFn n f).hostReqs = s.hostReqs := rfl
@[simp] theorem modFn_taskEnds (s : State) (n : Nat) (f : Fn → Fn) : (s.modFn n f).taskEnds = s.taskEnds := rfl
@[simp] theorem modFn_reports (s : State) (n : Nat) (f : Fn → Fn) : (s.modFn n f).reports = s.reports := rfl
@[simp] theorem modFn_pf (s : State) (n : Nat) (f : Fn → Fn) : (s.modFn n f).pf = s.pf := rfl
@[simp] theorem modFn_readReg (s : State) (n : Nat) (f : Fn → Fn) : (s.modFn n f).readReg = s.readReg := rfl
@[simp] theorem modFn_ckpt (s : State) (n : Nat) (f : Fn → Fn) : (s.modFn n f).ckpt = s.ckpt := rfl
@[simp] theorem modFn_tier (s : State) (n : Nat) (f : Fn → Fn) : (s.modFn n f).tier = s.tier := rfl
@[simp] theorem modFn_trust (s : State) (n : Nat) (f : Fn → Fn) : (s.modFn n f).trust = s.trust := rfl
@[simp] theorem modFn_fixlat (s : State) (n : Nat) (f : Fn → Fn) : (s.modFn n f).fixlat = s.fixlat := rfl
@[simp] theorem modFn_d3hot (s : State) (n : Nat) (f : Fn → Fn) : (s.modFn n f).d3hot = s.d3hot := rfl
@[simp] theorem modFn_limiting (s : State) (n : Nat) (f : Fn → Fn) : (s.modFn n f).limiting = s.limiting := rfl
@[simp] theorem modFn_lastCluster (s : State) (n : Nat) (f : Fn → Fn) : (s.modFn n f).lastCluster = s.lastCluster := rfl
@[simp] theorem modFn_gridSeq (s : State) (n : Nat) (f : Fn → Fn) : (s.modFn n f).gridSeq = s.gridSeq := rfl
@[simp] theorem modFn_uidSeq (s : State) (n : Nat) (f : Fn → Fn) : (s.modFn n f).uidSeq = s.uidSeq := rfl
@[simp] theorem modFn_reqSeq (s : State) (n : Nat) (f : Fn → Fn) : (s.modFn n f).reqSeq = s.reqSeq := rfl
@[simp] theorem modFn_now (s : State) (n : Nat) (f : Fn → Fn) : (s.modFn n f).now = s.now := rfl
@[simp] theorem modFn_stepNo (s : State) (n : Nat) (f : Fn → Fn) : (s.modFn n f).stepNo = s.stepNo := rfl
@[simp] theorem modFn_free (s : State) (n : Nat) (f : Fn → Fn) : (s.modFn n f).free = s.free := rfl
@[simp] theorem modFn_script (s : State) (n : Nat) (f : Fn → Fn) : (s.modFn n f).script = s.script := rfl
@[simp] theorem modFn_cur (s : State) (n : Nat) (f : Fn → Fn) : (s.modFn n f).cur = s.cur := rfl
@[simp] theorem modFn_mark (s : State) (n : Nat) (f : Fn → Fn) : (s.modFn n f).mark = s.mark := rfl
@[simp] theorem modFn_pre (s : State) (n : Nat) (f : Fn → Fn) : (s.modFn n f).pre = s.pre := rfl

/-! ### State.modLaunch -/

@[simp] theorem modLaunch_cores (s : State) (n : Nat) (f : Launch → Launch) : (s.modLaunch n f).cores = s.cores := rfl
@[simp] theorem modLaunch_clusters (s : State) (n : Nat) (f : Launch → Launch) : (s.modLaunch n f).clusters = s.clusters := rfl
@[simp] theorem modLaunch_dies (s : State) (n : Nat) (f : Launch → Launch) : (s.modLaunch n f).dies = s.dies := rfl
@[simp] theorem modLaunch_fns (s : State) (n : Nat) (f : Launch → Launch) : (s.modLaunch n f).fns = s.fns := rfl
@[simp] theorem modLaunch_objects (s : State) (n : Nat) (f : Launch → Launch) : (s.modLaunch n f).objects = s.objects := rfl
@[simp] theorem modLaunch_links (s : State) (n : Nat) (f : Launch → Launch) : (s.modLaunch n f).links = s.links := rfl
@[simp] theorem modLaunch_fabric (s : State) (n : Nat) (f : Launch → Launch) : (s.modLaunch n f).fabric = s.fabric := rfl
@[simp] theorem modLaunch_contribs (s : State) (n : Nat) (f : Launch → Launch) : (s.modLaunch n f).contribs = s.contribs := rfl
@[simp] theorem modLaunch_results (s : State) (n : Nat) (f : Launch → Launch) : (s.modLaunch n f).results = s.results := rfl
@[simp] theorem modLaunch_rcopies (s : State) (n : Nat) (f : Launch → Launch) : (s.modLaunch n f).rcopies = s.rcopies := rfl
@[simp] theorem modLaunch_lateSent (s : State) (n : Nat) (f : Launch → Launch) : (s.modLaunch n f).lateSent = s.lateSent := rfl
@[simp] theorem modLaunch_lateMtx (s : State) (n : Nat) (f : Launch → Launch) : (s.modLaunch n f).lateMtx = s.lateMtx := rfl
@[simp] theorem modLaunch_combiner (s : State) (n : Nat) (f : Launch → Launch) : (s.modLaunch n f).combiner = s.combiner := rfl
@[simp] theorem modLaunch_fly (s : State) (n : Nat) (f : Launch → Launch) : (s.modLaunch n f).fly = s.fly := rfl
@[simp] theorem modLaunch_hostMem (s : State) (n : Nat) (f : Launch → Launch) : (s.modLaunch n f).hostMem = s.hostMem := rfl
@[simp] theorem modLaunch_hostPoison (s : State) (n : Nat) (f : Launch → Launch) : (s.modLaunch n f).hostPoison = s.hostPoison := rfl
@[simp] theorem modLaunch_hostReqs (s : State) (n : Nat) (f : Launch → Launch) : (s.modLaunch n f).hostReqs = s.hostReqs := rfl
@[simp] theorem modLaunch_taskEnds (s : State) (n : Nat) (f : Launch → Launch) : (s.modLaunch n f).taskEnds = s.taskEnds := rfl
@[simp] theorem modLaunch_reports (s : State) (n : Nat) (f : Launch → Launch) : (s.modLaunch n f).reports = s.reports := rfl
@[simp] theorem modLaunch_pf (s : State) (n : Nat) (f : Launch → Launch) : (s.modLaunch n f).pf = s.pf := rfl
@[simp] theorem modLaunch_readReg (s : State) (n : Nat) (f : Launch → Launch) : (s.modLaunch n f).readReg = s.readReg := rfl
@[simp] theorem modLaunch_ckpt (s : State) (n : Nat) (f : Launch → Launch) : (s.modLaunch n f).ckpt = s.ckpt := rfl
@[simp] theorem modLaunch_tier (s : State) (n : Nat) (f : Launch → Launch) : (s.modLaunch n f).tier = s.tier := rfl
@[simp] theorem modLaunch_trust (s : State) (n : Nat) (f : Launch → Launch) : (s.modLaunch n f).trust = s.trust := rfl
@[simp] theorem modLaunch_fixlat (s : State) (n : Nat) (f : Launch → Launch) : (s.modLaunch n f).fixlat = s.fixlat := rfl
@[simp] theorem modLaunch_d3hot (s : State) (n : Nat) (f : Launch → Launch) : (s.modLaunch n f).d3hot = s.d3hot := rfl
@[simp] theorem modLaunch_limiting (s : State) (n : Nat) (f : Launch → Launch) : (s.modLaunch n f).limiting = s.limiting := rfl
@[simp] theorem modLaunch_lastCluster (s : State) (n : Nat) (f : Launch → Launch) : (s.modLaunch n f).lastCluster = s.lastCluster := rfl
@[simp] theorem modLaunch_gridSeq (s : State) (n : Nat) (f : Launch → Launch) : (s.modLaunch n f).gridSeq = s.gridSeq := rfl
@[simp] theorem modLaunch_uidSeq (s : State) (n : Nat) (f : Launch → Launch) : (s.modLaunch n f).uidSeq = s.uidSeq := rfl
@[simp] theorem modLaunch_reqSeq (s : State) (n : Nat) (f : Launch → Launch) : (s.modLaunch n f).reqSeq = s.reqSeq := rfl
@[simp] theorem modLaunch_now (s : State) (n : Nat) (f : Launch → Launch) : (s.modLaunch n f).now = s.now := rfl
@[simp] theorem modLaunch_stepNo (s : State) (n : Nat) (f : Launch → Launch) : (s.modLaunch n f).stepNo = s.stepNo := rfl
@[simp] theorem modLaunch_free (s : State) (n : Nat) (f : Launch → Launch) : (s.modLaunch n f).free = s.free := rfl
@[simp] theorem modLaunch_script (s : State) (n : Nat) (f : Launch → Launch) : (s.modLaunch n f).script = s.script := rfl
@[simp] theorem modLaunch_cur (s : State) (n : Nat) (f : Launch → Launch) : (s.modLaunch n f).cur = s.cur := rfl
@[simp] theorem modLaunch_mark (s : State) (n : Nat) (f : Launch → Launch) : (s.modLaunch n f).mark = s.mark := rfl
@[simp] theorem modLaunch_pre (s : State) (n : Nat) (f : Launch → Launch) : (s.modLaunch n f).pre = s.pre := rfl

/-! ### State.writeHost -/

@[simp] theorem writeHost_cores (s : State) (a : Nat) (l : List Byte) : (s.writeHost a l).cores = s.cores := rfl
@[simp] theorem writeHost_clusters (s : State) (a : Nat) (l : List Byte) : (s.writeHost a l).clusters = s.clusters := rfl
@[simp] theorem writeHost_dies (s : State) (a : Nat) (l : List Byte) : (s.writeHost a l).dies = s.dies := rfl
@[simp] theorem writeHost_fns (s : State) (a : Nat) (l : List Byte) : (s.writeHost a l).fns = s.fns := rfl
@[simp] theorem writeHost_launches (s : State) (a : Nat) (l : List Byte) : (s.writeHost a l).launches = s.launches := rfl
@[simp] theorem writeHost_objects (s : State) (a : Nat) (l : List Byte) : (s.writeHost a l).objects = s.objects := rfl
@[simp] theorem writeHost_links (s : State) (a : Nat) (l : List Byte) : (s.writeHost a l).links = s.links := rfl
@[simp] theorem writeHost_fabric (s : State) (a : Nat) (l : List Byte) : (s.writeHost a l).fabric = s.fabric := rfl
@[simp] theorem writeHost_contribs (s : State) (a : Nat) (l : List Byte) : (s.writeHost a l).contribs = s.contribs := rfl
@[simp] theorem writeHost_results (s : State) (a : Nat) (l : List Byte) : (s.writeHost a l).results = s.results := rfl
@[simp] theorem writeHost_rcopies (s : State) (a : Nat) (l : List Byte) : (s.writeHost a l).rcopies = s.rcopies := rfl
@[simp] theorem writeHost_lateSent (s : State) (a : Nat) (l : List Byte) : (s.writeHost a l).lateSent = s.lateSent := rfl
@[simp] theorem writeHost_lateMtx (s : State) (a : Nat) (l : List Byte) : (s.writeHost a l).lateMtx = s.lateMtx := rfl
@[simp] theorem writeHost_combiner (s : State) (a : Nat) (l : List Byte) : (s.writeHost a l).combiner = s.combiner := rfl
@[simp] theorem writeHost_fly (s : State) (a : Nat) (l : List Byte) : (s.writeHost a l).fly = s.fly := rfl
@[simp] theorem writeHost_hostPoison (s : State) (a : Nat) (l : List Byte) : (s.writeHost a l).hostPoison =
    s.hostPoison.filter fun kv => !decide (a ≤ 64 * kv.1 ∧ 64 * kv.1 + 64 ≤ a + l.length) := rfl
@[simp] theorem writeHost_hostReqs (s : State) (a : Nat) (l : List Byte) : (s.writeHost a l).hostReqs = s.hostReqs := rfl
@[simp] theorem writeHost_taskEnds (s : State) (a : Nat) (l : List Byte) : (s.writeHost a l).taskEnds = s.taskEnds := rfl
@[simp] theorem writeHost_reports (s : State) (a : Nat) (l : List Byte) : (s.writeHost a l).reports = s.reports := rfl
@[simp] theorem writeHost_pf (s : State) (a : Nat) (l : List Byte) : (s.writeHost a l).pf = s.pf := rfl
@[simp] theorem writeHost_readReg (s : State) (a : Nat) (l : List Byte) : (s.writeHost a l).readReg = s.readReg := rfl
@[simp] theorem writeHost_ckpt (s : State) (a : Nat) (l : List Byte) : (s.writeHost a l).ckpt = s.ckpt := rfl
@[simp] theorem writeHost_tier (s : State) (a : Nat) (l : List Byte) : (s.writeHost a l).tier = s.tier := rfl
@[simp] theorem writeHost_trust (s : State) (a : Nat) (l : List Byte) : (s.writeHost a l).trust = s.trust := rfl
@[simp] theorem writeHost_fixlat (s : State) (a : Nat) (l : List Byte) : (s.writeHost a l).fixlat = s.fixlat := rfl
@[simp] theorem writeHost_d3hot (s : State) (a : Nat) (l : List Byte) : (s.writeHost a l).d3hot = s.d3hot := rfl
@[simp] theorem writeHost_limiting (s : State) (a : Nat) (l : List Byte) : (s.writeHost a l).limiting = s.limiting := rfl
@[simp] theorem writeHost_lastCluster (s : State) (a : Nat) (l : List Byte) : (s.writeHost a l).lastCluster = s.lastCluster := rfl
@[simp] theorem writeHost_gridSeq (s : State) (a : Nat) (l : List Byte) : (s.writeHost a l).gridSeq = s.gridSeq := rfl
@[simp] theorem writeHost_uidSeq (s : State) (a : Nat) (l : List Byte) : (s.writeHost a l).uidSeq = s.uidSeq := rfl
@[simp] theorem writeHost_reqSeq (s : State) (a : Nat) (l : List Byte) : (s.writeHost a l).reqSeq = s.reqSeq := rfl
@[simp] theorem writeHost_now (s : State) (a : Nat) (l : List Byte) : (s.writeHost a l).now = s.now := rfl
@[simp] theorem writeHost_stepNo (s : State) (a : Nat) (l : List Byte) : (s.writeHost a l).stepNo = s.stepNo := rfl
@[simp] theorem writeHost_free (s : State) (a : Nat) (l : List Byte) : (s.writeHost a l).free = s.free := rfl
@[simp] theorem writeHost_script (s : State) (a : Nat) (l : List Byte) : (s.writeHost a l).script = s.script := rfl
@[simp] theorem writeHost_cur (s : State) (a : Nat) (l : List Byte) : (s.writeHost a l).cur = s.cur := rfl
@[simp] theorem writeHost_mark (s : State) (a : Nat) (l : List Byte) : (s.writeHost a l).mark = s.mark := rfl
@[simp] theorem writeHost_pre (s : State) (a : Nat) (l : List Byte) : (s.writeHost a l).pre = s.pre := rfl

/-! ### Reading one part after a change of another -/

@[simp] theorem die_modCore (s : State) (c d : Nat) (f : Core → Core) : (s.modCore c f).die d = s.die d := rfl
@[simp] theorem die_modGroup (s : State) (c g d : Nat) (f : Group → Group) : (s.modGroup c g f).die d = s.die d := rfl
@[simp] theorem die_modBlock (s : State) (c b d : Nat) (f : Block → Block) : (s.modBlock c b f).die d = s.die d := rfl
@[simp] theorem die_modCluster (s : State) (k d : Nat) (f : Cluster → Cluster) :
    (s.modCluster k f).die d = s.die d := rfl
@[simp] theorem die_modFn (s : State) (n d : Nat) (f : Fn → Fn) : (s.modFn n f).die d = s.die d := rfl
@[simp] theorem core_modDie (s : State) (d c : Nat) (f : Die → Die) : (s.modDie d f).core c = s.core c := rfl
@[simp] theorem core_modStop (s : State) (d t c : Nat) (f : Stop → Stop) : (s.modStop d t f).core c = s.core c := rfl
@[simp] theorem core_modCluster (s : State) (k c : Nat) (f : Cluster → Cluster) :
    (s.modCluster k f).core c = s.core c := rfl
@[simp] theorem core_modFn (s : State) (n c : Nat) (f : Fn → Fn) : (s.modFn n f).core c = s.core c := rfl
@[simp] theorem core_modLaunch (s : State) (n c : Nat) (f : Launch → Launch) :
    (s.modLaunch n f).core c = s.core c := rfl
@[simp] theorem core_writeHost (s : State) (a c : Nat) (l : List Byte) : (s.writeHost a l).core c = s.core c := rfl
@[simp] theorem group_modDie (s : State) (d c g : Nat) (f : Die → Die) :
    (s.modDie d f).group? c g = s.group? c g := rfl
@[simp] theorem group_modCluster (s : State) (k c g : Nat) (f : Cluster → Cluster) :
    (s.modCluster k f).group? c g = s.group? c g := rfl
@[simp] theorem block_modDie (s : State) (d c b : Nat) (f : Die → Die) :
    (s.modDie d f).block? c b = s.block? c b := rfl
@[simp] theorem block_modCluster (s : State) (k c b : Nat) (f : Cluster → Cluster) :
    (s.modCluster k f).block? c b = s.block? c b := rfl
@[simp] theorem cluster_modCore (s : State) (c k : Nat) (f : Core → Core) :
    (s.modCore c f).cluster k = s.cluster k := rfl
@[simp] theorem cluster_modDie (s : State) (d k : Nat) (f : Die → Die) :
    (s.modDie d f).cluster k = s.cluster k := rfl
@[simp] theorem fn_modCore (s : State) (c n : Nat) (f : Core → Core) : (s.modCore c f).fn n = s.fn n := rfl
@[simp] theorem fn_modDie (s : State) (d n : Nat) (f : Die → Die) : (s.modDie d f).fn n = s.fn n := rfl

/-! ### Reading a part after its own change -/

theorem die_modDie (s : State) (d e : Nat) (f : Die → Die) :
    (s.modDie d f).die e = if e = d then f (s.die d) else s.die e := by
  simp [State.die, State.modDie, tget_tset]

theorem cluster_modCluster (s : State) (k j : Nat) (f : Cluster → Cluster) :
    (s.modCluster k f).cluster j = if j = k then f (s.cluster k) else s.cluster j := by
  simp [State.cluster, State.modCluster, tget_tset]

theorem fn_modFn (s : State) (n m : Nat) (f : Fn → Fn) :
    (s.modFn n f).fn m = if m = n then f (s.fn n) else s.fn m := by
  simp [State.fn, State.modFn, tget_tset]

theorem stop_modStop (s : State) (d t e u : Nat) (f : Stop → Stop) :
    (s.modStop d t f).stop e u = if e = d ∧ u = t then f (s.stop d t) else s.stop e u := by
  simp only [State.stop, State.modStop, die_modDie]
  by_cases h : e = d
  · subst h; simp [tget_tset]
  · simp [h]

end Sys2Proof.Machine
end

