-- ==== Sys2Proof/Laws/Memory.lean ====
section
/-!
SUPPORT. Memory: what reads after writes give, and that every memory operation keeps every memory in its
canonical form (log entry 2).
-/
namespace Sys2Proof.Machine

/-! ### Bytes written and read -/

/-- Reading after bytes are written: the byte written there, else what stood there. -/
theorem tget_tblWrite (t : Tbl Byte) (a x : Nat) (l : List Byte) :
    tget 0 (tblWrite t a l) x = if a ≤ x ∧ x < a + l.length then l.getD (x - a) 0 else tget 0 t x := by
  induction l generalizing t a with
  | nil => simp [tblWrite]
  | cons b l ih =>
    simp only [tblWrite, ih, tget_tset, List.length_cons]
    by_cases h : x = a
    · subst h; simp
    · by_cases h2 : a + 1 ≤ x ∧ x < a + 1 + l.length
      · have e : x - a = (x - (a + 1)) + 1 := by omega
        have h3 : a ≤ x ∧ x < a + (l.length + 1) := by omega
        rw [if_pos h2, if_pos h3, e, List.getD_cons_succ]
      · have h3 : ¬(a ≤ x ∧ x < a + (l.length + 1)) := by omega
        rw [if_neg h2, if_neg h3, if_neg h]

/-- A byte that no cell names reads as before. -/
theorem tget_foldl_cells (k : Nat → Nat) (l : List (Nat × Byte)) (t : Tbl Byte) (x : Nat)
    (h : ∀ c ∈ l, k c.1 ≠ x) : tget 0 (l.foldl (fun t c => tset 0 t (k c.1) c.2) t) x = tget 0 t x := by
  induction l generalizing t with
  | nil => rfl
  | cons c l ih =>
    simp only [List.foldl_cons]
    rw [ih _ fun d hd => h d (List.mem_cons_of_mem _ hd)]
    exact tget_tset_ne _ _ _ (Ne.symm (h c List.mem_cons_self))

theorem tblBytes_length (t : Tbl Byte) (a n : Nat) : (tblBytes t a n).length = n := by
  simp only [tblBytes, List.length_map]
  induction n generalizing a with
  | zero => rfl
  | succ n ih => simp [rangeFrom, ih]

/-! ### The canonical form of one memory -/

theorem wf_empty : Memory.wf [] = true := rfl

theorem wf_tset {m : Tbl Byte} (a : Nat) (b : Byte) (w : Memory.wf m = true) : Memory.wf (tset 0 m a b) = true :=
  twf_tset _ _ w

theorem wf_tblWrite {m : Tbl Byte} (a : Nat) (l : List Byte) (w : Memory.wf m = true) :
    Memory.wf (tblWrite m a l) = true := by
  induction l generalizing m a with
  | nil => exact w
  | cons b l ih => exact ih _ (wf_tset _ _ w)

theorem wf_filter {m : Tbl Byte} (p : Nat × Byte → Bool) (w : Memory.wf m = true) :
    Memory.wf (m.filter p) = true := twf_filter p w

theorem wf_cells {m : Tbl Byte} (k : Nat → Nat) (l : List (Nat × Byte)) (w : Memory.wf m = true) :
    Memory.wf (l.foldl (fun t c => tset 0 t (k c.1) c.2) m) = true := twf_foldl (fun c : Nat × Byte => k c.1) _ l w

/-! ### The canonical form of the machine's memories -/

/-- The memories are canonical exactly when the memory of every core and die, and the host's, is. -/
theorem memWf_iff (s : State) : s.memWf = true ↔
    (∀ kc ∈ s.cores, Memory.wf kc.2.spad = true) ∧
      (∀ kd ∈ s.dies, kd.2.memWf = true) ∧ Memory.wf s.hostMem = true := by
  simp [State.memWf, and_assoc]

theorem dieWf_iff (x : Die) : x.memWf = true ↔
    Memory.wf x.hbm = true ∧ Memory.wf x.side = true ∧ Memory.wf x.plain = true := by
  simp [Die.memWf, and_assoc]

theorem memWf_reset : State.reset.memWf = true := by decide

theorem mem_tput {α : Type} {t : Tbl α} {n : Nat} {x : α} {kv : Nat × α} (h : kv ∈ tput t n x) :
    kv = (n, x) ∨ kv ∈ t := by
  induction t with
  | nil => simpa [tput] using h
  | cons p t ih =>
    obtain ⟨k, v⟩ := p
    simp only [tput] at h
    split at h
    · simpa using h
    · split at h
      · rcases List.mem_cons.1 h with h | h
        · exact .inl h
        · exact .inr (List.mem_cons_of_mem _ h)
      · rcases List.mem_cons.1 h with h | h
        · exact .inr (h ▸ List.mem_cons_self)
        · exact (ih h).imp id (List.mem_cons_of_mem _)

theorem mem_tset {α : Type} [DecidableEq α] {d : α} {t : Tbl α} {n : Nat} {x : α} {kv : Nat × α}
    (h : kv ∈ tset d t n x) : kv = (n, x) ∨ kv ∈ t := by
  unfold tset at h
  split at h
  · exact .inr (List.mem_filter.1 h).1
  · exact mem_tput h

theorem tget_of_all {α : Type} {d : α} {t : Tbl α} {P : α → Prop} (hd : P d) (h : ∀ kv ∈ t, P kv.2) (n : Nat) :
    P (tget d t n) := by
  induction t with
  | nil => exact hd
  | cons p t ih =>
    simp only [tget]
    split
    · exact h p List.mem_cons_self
    · exact ih fun kv hk => h kv (List.mem_cons_of_mem _ hk)

theorem wf_spad {s : State} (w : s.memWf = true) (c : Nat) : Memory.wf (s.core c).spad = true :=
  tget_of_all (P := fun x : Core => Memory.wf x.spad = true) rfl ((memWf_iff s).1 w).1 c

theorem wf_die {s : State} (w : s.memWf = true) (d : Nat) : (s.die d).memWf = true :=
  tget_of_all (P := fun x : Die => x.memWf = true) rfl ((memWf_iff s).1 w).2.1 d

/-- A change of a core that leaves its scratchpad canonical leaves every memory canonical. -/
theorem memWf_modCore {s : State} (c : Nat) (f : Core → Core) (w : s.memWf = true)
    (h : Memory.wf (s.core c).spad = true → Memory.wf (f (s.core c)).spad = true) :
    (s.modCore c f).memWf = true := by
  have m := (memWf_iff s).1 w
  refine (memWf_iff _).2 ⟨fun kc hk => ?_, m.2.1, m.2.2⟩
  rcases mem_tset hk with e | e
  · subst e; exact h (wf_spad w c)
  · exact m.1 kc e

/-- A change of a die that leaves its memories canonical leaves every memory canonical. -/
theorem memWf_modDie {s : State} (d : Nat) (f : Die → Die) (w : s.memWf = true)
    (h : (s.die d).memWf = true → (f (s.die d)).memWf = true) : (s.modDie d f).memWf = true := by
  have m := (memWf_iff s).1 w
  refine (memWf_iff _).2 ⟨m.1, fun kd hk => ?_, m.2.2⟩
  rcases mem_tset hk with e | e
  · subst e; exact h (wf_die w d)
  · exact m.2.1 kd e

@[simp] theorem memWf_modGroup {s : State} (c g : Nat) (f : Group → Group) (w : s.memWf = true) :
    (s.modGroup c g f).memWf = true := memWf_modCore c _ w id

@[simp] theorem memWf_modBlock {s : State} (c b : Nat) (f : Block → Block) (w : s.memWf = true) :
    (s.modBlock c b f).memWf = true := memWf_modCore c _ w id

@[simp] theorem memWf_modStop {s : State} (d t : Nat) (f : Stop → Stop) (w : s.memWf = true) :
    (s.modStop d t f).memWf = true := memWf_modDie d _ w id

@[simp] theorem memWf_modCluster (s : State) (k : Nat) (f : Cluster → Cluster) :
    (s.modCluster k f).memWf = s.memWf := rfl

@[simp] theorem memWf_modFn (s : State) (n : Nat) (f : Fn → Fn) : (s.modFn n f).memWf = s.memWf := rfl

@[simp] theorem memWf_modLaunch (s : State) (n : Nat) (f : Launch → Launch) :
    (s.modLaunch n f).memWf = s.memWf := rfl

/-! ### The operations that write memory -/

/-- Host writes keep every memory canonical. -/
theorem memWf_writeHost {s : State} (a : Nat) (l : List Byte) (w : s.memWf = true) :
    (s.writeHost a l).memWf = true := by
  have m := (memWf_iff s).1 w
  exact (memWf_iff _).2 ⟨m.1, m.2.1, wf_tblWrite a l m.2.2⟩

/-- A journal record changes no memory. -/
theorem memWf_journal {s : State} (c b : Nat) (same : JRec → Bool) (r : JRec) (w : s.memWf = true) :
    (s.journal c b same r).memWf = true := by
  unfold State.journal
  split
  · exact w
  · repeat' split
    all_goals first | exact w | exact memWf_modBlock _ _ _ w

/-- A write of a scratchpad keeps every memory canonical. -/
theorem memWf_writeSpad {s : State} (writer : Option (Nat × Nat)) (home : Nat) (cells : List (Nat × Byte))
    (poison nonres : Bool) (w : s.memWf = true) : (s.writeSpad writer home cells poison nonres).memWf = true := by
  unfold State.writeSpad
  refine memWf_modCore home _ ?_ fun h => wf_cells id cells h
  split
  · exact w
  · generalize linesOf cells = l
    induction l generalizing s with
    | nil => exact w
    | cons a l ih => exact ih (memWf_journal _ _ _ _ w)

/-- Storing a unit keeps a die's memories canonical. -/
theorem wf_store (x : Die) (g pa : Nat) (d side : List Byte)
    (h : x.memWf = true) : (x.store g pa d side).memWf = true :=
  have ⟨a, b, c⟩ := (dieWf_iff x).1 h
  (dieWf_iff _).2 ⟨wf_cells (fun n => dramCell g n) _ a, wf_cells (fun n => sideCell g pa n) _ b, c⟩

/-- The bytes of a checkpoint put in their place keep a memory canonical. -/
theorem wf_replacePart (m new : Tbl Byte) (l : List (Nat × Nat)) (addr : Nat → Nat) (h : Memory.wf m = true) :
    Memory.wf (replacePart 0 m new l addr) = true := wf_cells id new (wf_filter _ h)

/-- Loading a checkpoint keeps a die's memories canonical. -/
theorem wf_load (x : Die) (d : Nat) (k : Ckpt) (t : Tier) (bytes : List (Nat × Byte))
    (h : x.memWf = true) : (x.load d k t bytes).memWf = true :=
  have ⟨a, b, c⟩ := (dieWf_iff x).1 h
  (dieWf_iff _).2 ⟨wf_cells
    (fun n => dramCell (tget 0 (replacePart 0 x.wgran (tget [] t.wgran d) (x.segments k) fun m => 32 * m) (n / 32)) n)
    bytes (wf_filter _ a), wf_replacePart _ _ _ _ b,
    wf_cells id _ (wf_replacePart _ _ _ _ c)⟩

/-- Writing a checkpoint's record to host memory keeps every memory canonical. -/
theorem memWf_putTier {s : State} (t : Tier) (w : s.memWf = true) : (s.putTier t).memWf = true :=
  have m := (memWf_iff s).1 w
  (memWf_iff _).2 ⟨m.1, m.2.1, wf_cells t.at_ _ (wf_filter _ m.2.2)⟩

/-- The scratchpad image of a block start keeps the form. -/
theorem wf_loadSpad (x : Core) (base size : Nat) (image : List Byte) (h : Memory.wf x.spad = true) :
    Memory.wf (x.loadSpad base size image).spad = true := wf_tblWrite _ _ (wf_filter _ h)

/-- Writing a journal record back keeps every memory canonical. -/
theorem memWf_undo {s : State} (c b : Nat) (r : JRec) (w : s.memWf = true) : (s.undo c b r).memWf = true := by
  cases r with
  | vreg slot uid reg old => exact memWf_modCore _ _ w id
  | line home line old p n => exact memWf_modCore home _ w fun h => wf_cells id old (wf_filter _ h)
  | sealing off len old => exact memWf_modBlock _ _ _ w

/-- The moves of the outside keep every memory canonical. -/
theorem memWf_env {s : State} (e : Env) (w : s.memWf = true) : (s.env e).memWf = true := by
  cases e with
  | hostWrite a l => exact memWf_writeHost a l w
  | hbmWrite d a l =>
    simp only [State.env]; split
    · exact w
    · refine memWf_modDie d _ w fun h => (dieWf_iff _).2 ?_
      have ⟨a', b, c⟩ := (dieWf_iff _).1 h
      exact ⟨twf_foldl (fun c : Nat × Byte => dramCell (tget 0 (s.die d).wgran (c.1 / 32)) c.1) _ _ a', b,
        wf_tblWrite a l c⟩
  | dramError d a b =>
    simp only [State.env]; split
    · exact w
    · refine memWf_modDie d _ w fun h => (dieWf_iff _).2 ?_
      have ⟨x, y⟩ := (dieWf_iff _).1 h
      exact ⟨wf_tset a b x, y⟩
  | sideWrite d i b =>
    simp only [State.env]; split
    · exact w
    · refine memWf_modDie d _ w fun h => (dieWf_iff _).2 ?_
      have ⟨x, y, z⟩ := (dieWf_iff _).1 h
      exact ⟨x, wf_tset i b y, z⟩
  | firmware d router r =>
    simp only [State.env, State.firmware]; split
    · refine memWf_modDie d _ w fun h => ?_
      unfold Die.inject
      split <;> exact h
    · exact w
  | service d f => simp only [State.env]; split; exacts [w, memWf_modDie d _ w id]
  | noReply c b => exact memWf_modCore c _ w id
  | regRead f o n => simp only [State.env, State.hostReads]; split <;> exact w
  | slotStart d n => simp only [State.env]; split; exacts [w, memWf_modDie d _ w id]
  | linkStalls n l => exact w
  | loadObject o => exact w
  | peer n p => simp only [State.env, State.peerFrame]; split <;> exact w
  | linkRetry n k => exact w
  | pfSegment a b => exact w
  | stages l => exact w
  | dropSlice d i => simp only [State.env]; split; exacts [w, memWf_modDie d _ w id]
  | dropCode c i => simp only [State.env]; split; exacts [w, memWf_modCore c _ w id]
  | journalError c b => exact memWf_modBlock c b _ w

/-! ### Operations over registers and splits -/

theorem memWf_modG {s : State} (cx : Ctx) (f : Group → Group) (w : s.memWf = true) : (s.modG cx f).memWf = true :=
  memWf_modGroup _ _ _ w

theorem memWf_modSplit {s : State} (cx : Ctx) (f : Split → Split) (w : s.memWf = true) :
    (s.modSplit cx f).memWf = true := memWf_modGroup _ _ _ w

theorem memWf_setStat {s : State} (c g : Nat) (x : Word) (w : s.memWf = true) : (s.setStat c g x).memWf = true :=
  memWf_modGroup _ _ _ w

theorem memWf_wentTo {s : State} (cx : Ctx) (pc : DWord) (w : s.memWf = true) : (s.wentTo cx pc).memWf = true :=
  memWf_modGroup cx.core cx.slot _ w

theorem memWf_setS {s : State} (cx : Ctx) (n : Nat) (x : Word) (w : s.memWf = true) :
    (s.setS cx n x).memWf = true := by
  unfold State.setS; split
  · exact memWf_modG _ _ w
  · exact memWf_modSplit _ _ w

theorem memWf_setK {s : State} (cx : Ctx) (n : Nat) (m x : LaneMask) (w : s.memWf = true) :
    (s.setK cx n m x).memWf = true := by
  unfold State.setK; split
  · exact w
  · exact memWf_modG _ _ w

theorem memWf_setV {s : State} (cx : Ctx) (r : Nat) (m : LaneMask) (f : Nat → Word) (w : s.memWf = true) :
    (s.setV cx r m f).memWf = true := by
  unfold State.setV State.journalV State.journalReg
  split
  · exact w
  · refine memWf_modG _ _ ?_
    split
    · exact w
    · exact memWf_journal _ _ _ _ w

end Sys2Proof.Machine
end

