-- ==== Sys2Proof/Laws/Step.lean ====
section
/-!
SUPPORT. What one step can do: the five kinds of a move, and what each answers.
-/
namespace Sys2Proof.Machine

/-- What a move that names no instruction and no step of the clock leaves: an order, or a load performed. -/
def State.ordered (s : State) : Action → Option State
  | .aim c seq n => some (s.aimCmd c seq n)
  | .aimStop d t n => some (s.aimStop d t n)
  | .load c g => some (s.loadPerform c g)
  | _ => none

/-- A step that answers a next state made one of the six kinds of a move. -/
theorem step_cases {s t : State} (h : step s = .next t) :
    (∃ i, s.nextAction = .ev i ∧ (isEvent i = true ∧ exec i s.taken = .next t ∨ isEvent i = false ∧ t = s.taken)) ∨
    (∃ c hg hs pair, s.nextAction = .issue c hg hs pair ∧ s.taken.issueOn c hg hs pair = .next t) ∨
    (∃ c g i, s.nextAction = .poll c g i ∧ s.taken.pollOn c g i = .next t) ∨
    (s.nextAction = .tick ∧ (s.taken.tickDue = false ∧ t = s.taken.tick ∨ t = s.taken)) ∨
    (∃ e, s.nextAction = .env e ∧ t = s.taken.env e) ∨ s.taken.ordered s.nextAction = some t := by
  unfold step State.act at h
  split at h <;> rename_i a e
  · refine .inl ⟨_, e, ?_⟩
    split at h
    · rename_i hi
      exact .inl ⟨hi, h⟩
    · rename_i hi
      exact .inr ⟨by simpa using hi, by simpa using h.symm⟩
  · exact .inr (.inl ⟨_, _, _, _, e, h⟩)
  · exact .inr (.inr (.inl ⟨_, _, _, e, h⟩))
  · refine .inr (.inr (.inr (.inl ⟨e, ?_⟩)))
    cases hd : s.taken.tickDue
    · exact .inl ⟨rfl, by simpa [hd] using h.symm⟩
    · exact .inr (by simpa [hd] using h.symm)
  · exact .inr (.inr (.inr (.inr (.inl ⟨_, e, by simpa using h.symm⟩))))
  all_goals exact .inr (.inr (.inr (.inr (.inr (by rw [e]; simpa [State.ordered] using h)))))

/-- A script's head is the next move. -/
theorem nextAction_cons {s : State} {a : Action} {l : List Action} (h : s.script = a :: l) :
    s.nextAction = a := by simp [State.nextAction, h]

/-- An event of the script is executed. -/
theorem step_event {s : State} {i : Instr} {l : List Action} (h : s.script = .ev i :: l)
    (hi : isEvent i = true) : step s = exec i s.taken := by
  simp [step, nextAction_cons h, State.act, hi]

/-- A step of the clock, when nothing that belongs to the cycle is left. -/
theorem step_tick {s : State} {l : List Action} (h : s.script = .tick :: l) (d : s.taken.tickDue = false) :
    step s = .next s.taken.tick := by
  simp [step, nextAction_cons h, State.act, d]

/-- Taking a move changes the script and the count of moves alone. -/
theorem taken_eq (s : State) : s.taken = { s with script := s.script.drop 1, stepNo := s.stepNo + 1 } := rfl

@[simp] theorem taken_core (s : State) (c : Nat) : s.taken.core c = s.core c := rfl
@[simp] theorem taken_die (s : State) (d : Nat) : s.taken.die d = s.die d := rfl
@[simp] theorem taken_group (s : State) (c g : Nat) : s.taken.group? c g = s.group? c g := rfl
@[simp] theorem taken_block (s : State) (c b : Nat) : s.taken.block? c b = s.block? c b := rfl
@[simp] theorem taken_memWf (s : State) : s.taken.memWf = s.memWf := rfl

end Sys2Proof.Machine
end

