-- ==== Sys2Proof/Tests/Slice0.lean ====
section
/-!
SUPPORT. Tests: words that decode, ill-formed terms that are refused, states that meet the hypotheses of the
statements clause by clause, and single instructions on small states. The words are written out from the field
tables of R38, R44, R47, R49, R50 and R51; the expected results come from the rules named.
-/
namespace Sys2Proof.Tests

open Sys2Proof.Machine Sys2Proof.Claims

/-! ### Small states -/

/-- Instruction words with every field 0 (SZ = 2 in format M). -/
def zV : FmtV := default
def zS : FmtS := default
def zB : FmtB := default
def zM : FmtM := { (default : FmtM) with sz := 2 }
def zE : FmtE := default

/-- A split of lanes 0 to 3, a group of 4 lanes with it, and a block of 4096 bytes. -/
def sp : Split := { exec := 0xF, domain := 0xF, pc := 0x100 }
def gr : Group := { uid := 1, nlanes := 4, foot := 16, splits := [sp] }
def bl : Block := { uid := 5, size := 4096, trapEntry := some 0 }

/-- A launch whose handler 0 stands at 0x4000. -/
def prog : ProgInfo := { entry := 0x4000, foot := 16, lanes := 4 }
def obj : CodeObj := { asid := 0, addr := 0x10000, progs := [prog], handlers := [(0, prog)], image := [7, 8], bytes := [] }
def ln : Launch :=
  { id := 0, fn := 0, vf := 0, asid := 0, priv := false, object := 0x10000, prog := 0, lanes := 4, groups := 1
    gangp := 1, gangf := 1, spad := 512, gangs := 1, nextGang := 1, endGang := 1, pg := {}, wdog := 0, lid := 9
    preds := [], prio := 0, trapEntry := some 0, jobrec := false, jraddr := 0, nonce := [], start := []
    record := [], fwdig := [] }

/-- Core 0 with one group and its block, in slot 0 each. -/
def co (g : Group) (b : Block) : Core := { groups := [(0, g)], blocks := [(0, b)] }

/-- A machine with that core 0, whose cursor names split 0 of the group. -/
def onCore (x : Core) : State := { State.reset with cores := [(0, x)], launches := [ln], objects := [obj] }
def mk (g : Group) (b : Block) : State := onCore (co g b)

/-- What an instruction of split `p` sees there. -/
def seen (g : Group) (b : Block) (p : Split) : Ctx := { core := 0, slot := 0, grp := g, sp := p, blk := b, rd := g.regs }

/-- Whether an outcome is a next state with a property. -/
def yes (o : Out) (p : State → Bool) : Bool :=
  match o with
  | .next t => p t
  | _ => false

/-- The group in slot 0 of core 0, and a scalar, a vector lane and a mask register of it. -/
def group0 (t : State) : Group := (t.group? 0 0).getD {}
def scalar0 (t : State) (n : Nat) : Word := tget 0 (group0 t).regs.s n
def lane0 (t : State) (r l : Nat) : Word := tget 0 (group0 t).regs.v (96 * r + l)
def mask0 (t : State) (n : Nat) : LaneMask := tget 0 (group0 t).regs.k n

/-! ### Well-formedness: one ill-formed term for each check, refused, beside a well-formed one -/


theorem test_wf_good :
    wellFormed (.vadd zV) 8 ∧ wellFormed (.sadd zS) 8 ∧ wellFormed (.bra zB) 8 ∧ wellFormed (.lds zM) 8 ∧
      wellFormed (.nop zE) 8 := by decide

/-- A literal that the word does not have, and the forms of SLI and HGIVE in each other's place (R40, R125, R249). -/
theorem test_wf_refuses_uncanonical :
    !wellFormed (.vadd { zV with lit := 5 }) 8 ∧ !wellFormed (.sadd { zS with lit := 5 }) 8 ∧
      !wellFormed (.sliShort { zS with lx := 1, imm := 1 }) 8 ∧ !wellFormed (.sliLong { zS with imm := 1 }) 8 ∧
      !wellFormed (.hgive { zE with imm16 := 256 }) 8 ∧ !wellFormed (.hgiveMake zE) 8 := by decide

/-- Reason 0x02: LX = 1 that is not accepted, and a literal half that must be zero (R40, R46, R48). -/
theorem test_wf_refuses_literal :
    Machine.illegalReason (.vadd { zV with lx := 1 }) 8 = some 2 ∧
      Machine.illegalReason (.vadd { zV with lx := 1, bsc := 1, lit := 0x100000000 }) 8 = some 2 ∧
      Machine.illegalReason (.sadd { zS with lx := 1 }) 8 = some 2 ∧
      Machine.illegalReason (.sadd { zS with lx := 1, imm := 1, imm29 := 1 }) 8 = some 2 ∧
      Machine.illegalReason (.bra { zB with lx := 1 }) 8 = some 2 ∧
      Machine.illegalReason (.lds { zM with lx := 1 }) 8 = some 2 ∧
      Machine.illegalReason (.nop { zE with lx := 1 }) 8 = some 2 := by decide

/-- Reason 0x03: a TY, RM, SAT, NG, SZ or SCOPE value that is reserved or not accepted. -/
theorem test_wf_refuses_type :
    Machine.illegalReason (.vadd { zV with ty := 2 }) 8 = some 3 ∧
      Machine.illegalReason (.vfadd { zV with ty := 2, rm := 5 }) 8 = some 3 ∧
      Machine.illegalReason (.vadd { zV with sat := 1 }) 8 = some 3 ∧
      Machine.illegalReason (.vadd { zV with ng := 1 }) 8 = some 3 ∧
      Machine.illegalReason (.lds { zM with sz := 5 }) 8 = some 3 ∧
      Machine.illegalReason (.lds { zM with scope := 9 }) 8 = some 3 := by decide

/-- Reason 0x04: a field that the instruction does not use, KM where it is not accepted, and SZ of a FENCE. -/
theorem test_wf_refuses_unused :
    Machine.illegalReason (.vmov { zV with va := 1 }) 8 = some 4 ∧
      Machine.illegalReason (.vadd { zV with imm8 := 1 }) 8 = some 4 ∧
      Machine.illegalReason (.sadd { zS with km := 1 }) 8 = some 4 ∧
      Machine.illegalReason (.sadd { zS with imm := 1, sb := 1 }) 8 = some 4 ∧
      Machine.illegalReason (.bra { zB with sa := 1 }) 8 = some 4 ∧
      Machine.illegalReason (.lds { zM with nov := 1, voff := 1 }) 8 = some 4 ∧
      Machine.illegalReason (.fence { zM with sz := 6, scope := 2 }) 8 = some 4 ∧
      Machine.illegalReason (.nop { zE with imm16 := 1 }) 8 = some 4 := by decide

/-- Reason 0x05: pairs and quadruples (R48, R50). -/
theorem test_wf_refuses_misaligned :
    Machine.illegalReason (.sliLong { zS with lx := 1, imm := 1, sd := 3 }) 8 = some 5 ∧
      Machine.illegalReason (.call { zB with sa := 1 }) 8 = some 5 ∧
      Machine.illegalReason (.lds { zM with sz := 3, vds := 1 }) 8 = some 5 ∧
      Machine.illegalReason (.icinv { zE with sa := 1 }) 8 = some 5 := by decide

/-- Reason 0x06: a vector register at or beyond the footprint; the last one below it passes (R52). -/
theorem test_wf_refuses_beyond_footprint :
    Machine.illegalReason (.vadd { zV with vd := 8 }) 8 = some 6 ∧ Machine.illegalReason (.vadd { zV with vd := 7 }) 8 = none ∧
      Machine.illegalReason (.bdivx { zB with sa := 8 }) 8 = some 6 ∧
      Machine.illegalReason (.lds { zM with sz := 4, vds := 8 }) 8 = some 6 ∧
      Machine.illegalReason (.sendv { zE with sa := 8 }) 8 = some 6 := by decide

/-- Reason 0x07: the base register of a PUSH. -/
theorem test_wf_refuses_push_base :
    Machine.illegalReason (.push { zE with sa := 8 }) 8 = some 7 ∧ wellFormed (.push { zE with sa := 48 }) 8 = false ∧
      wellFormed (.push { zE with sa := 32 }) 8 := by decide

/-! ### Words of each family decode (R38 to R53) -/


theorem test_decode_sys : decode 0x042000000000BEEF 0x0 128 =
    .ok (.trap { lx := 0, km := 0, sa := 0, sb := 0, sd := 0, ch := 0, q := 0, imm16 := 48879 }) := by decide

theorem test_decode_ctl : decode 0x0840900000FFFFFF 0x0 128 =
    .ok (.bdivx { lx := 0, km := 0, sa := 36, kc := 0, jr := 0, hint := 0, neg := 0, imm10 := 0, off24 := 16777215 }) := by decide

theorem test_decode_salu : decode 0x1128280020000000 0x123456789ABCDEF 128 =
    .ok (.sliLong { lx := 1, km := 0, sd := 10, sa := 0, sb := 0, imm := 1, imm29 := 0, lit := 81985529216486895 }) := by decide

theorem test_decode_msk : decode 0x14810E0800000000 0x0 128 =
    .ok (.kpopc { lx := 0, km := 1, vd := 7, va := 2, vb := 0, vc := 0, ty := 0, rm := 0, sat := 0, bsc := 0, csc := 0, ng := 0, imm8 := 0, lit := 0 }) := by decide

theorem test_decode_vint : decode 0x20521E0410310000 0x0 128 =
    .ok (.vmad { lx := 0, km := 2, vd := 15, va := 1, vb := 2, vc := 3, ty := 1, rm := 0, sat := 0, bsc := 0, csc := 0, ng := 0, imm8 := 0, lit := 0 }) := by decide

theorem test_decode_vcmp : decode 0x24A0042450030001 0x0 128 =
    .ok (.vfclass { lx := 0, km := 0, vd := 2, va := 9, vb := 10, vc := 0, ty := 3, rm := 0, sat := 0, bsc := 0, csc := 0, ng := 0, imm8 := 1, lit := 0 }) := by decide

theorem test_decode_vfp : decode 0x28080A1800046800 0x3C003C00 128 =
    .ok (.vfadd { lx := 1, km := 0, vd := 5, va := 6, vb := 0, vc := 0, ty := 4, rm := 3, sat := 0, bsc := 1, csc := 0, ng := 0, imm8 := 0, lit := 1006648320 }) := by decide

theorem test_decode_vxf : decode 0x2C40020800020000 0x0 128 =
    .ok (.vexp2 { lx := 0, km := 0, vd := 1, va := 2, vb := 0, vc := 0, ty := 2, rm := 0, sat := 0, bsc := 0, csc := 0, ng := 0, imm8 := 0, lit := 0 }) := by decide

theorem test_decode_vcvt : decode 0x3020020800040012 0x0 128 =
    .ok (.vunpk { lx := 0, km := 0, vd := 1, va := 2, vb := 0, vc := 0, ty := 4, rm := 0, sat := 0, bsc := 0, csc := 0, ng := 0, imm8 := 18, lit := 0 }) := by decide

theorem test_decode_vlx : decode 0x3480020800022008 0x0 128 =
    .ok (.vredu { lx := 0, km := 0, vd := 1, va := 2, vb := 0, vc := 0, ty := 2, rm := 1, sat := 0, bsc := 0, csc := 0, ng := 0, imm8 := 8, lit := 0 }) := by decide

theorem test_decode_spm : decode 0x403010200C000010 0x0 128 =
    .ok (.stu { lx := 0, km := 0, vds := 8, sbase := 4, voff := 0, nov := 1, sz := 4, scope := 0, imm20 := 16 }) := by decide

theorem test_decode_sat : decode 0x4405105023300000 0x0 128 =
    .ok (.aadd { lx := 0, km := 5, vds := 8, sbase := 10, voff := 2, nov := 0, sz := 3, scope := 3, imm20 := 0 }) := by decide

theorem test_decode_fen : decode 0x48100C50082FFFE0 0x0 128 =
    .ok (.fseal { lx := 0, km := 0, vds := 6, sbase := 10, voff := 0, nov := 1, sz := 0, scope := 2, imm20 := 1048544 }) := by decide

theorem test_decode_cmd : decode 0x5020240000000001 0x0 128 =
    .ok (.bwait { lx := 0, km := 0, sa := 9, sb := 0, sd := 0, ch := 0, q := 0, imm16 := 1 }) := by decide

theorem test_decode_chn : decode 0x5443140302000000 0x0 128 =
    .ok (.recvv { lx := 0, km := 3, sa := 5, sb := 0, sd := 12, ch := 2, q := 0, imm16 := 0 }) := by decide

theorem test_decode_tsk : decode 0x58003000C0000000 0x0 128 =
    .ok (.spawn { lx := 0, km := 0, sa := 12, sb := 0, sd := 3, ch := 0, q := 0, imm16 := 0 }) := by decide

theorem test_decode_clu : decode 0x6000105182000103 0x0 128 =
    .ok (.hgiveMake { lx := 0, km := 0, sa := 4, sb := 5, sd := 6, ch := 2, q := 0, imm16 := 259 }) := by decide

theorem test_decode_mtx : decode 0x642020C000000021 0x0 128 =
    .ok (.mloop { lx := 0, km := 0, sa := 8, sb := 12, sd := 0, ch := 0, q := 0, imm16 := 33 }) := by decide

theorem test_decode_cvy : decode 0x6810000200000000 0x0 128 =
    .ok (.cvleave { lx := 0, km := 0, sa := 0, sb := 0, sd := 8, ch := 0, q := 0, imm16 := 0 }) := by decide

/-- Unassigned majors and minors are no instruction, with reason 1 (R54). -/
theorem test_decode_unassigned :
    decode 0x0000000000000000 0 128 = .error .unassigned ∧ decode 0x0480000000000000 0 128 = .error .unassigned ∧
      decode 0xFC00000000000000 0 128 = .error .unassigned := by decide

/-- The word of an ill-formed instruction is rejected by its reason: VADD with a register beyond the footprint. -/
theorem test_decode_ill_formed : decode 0x2000100000000000 0 8 = .error (.illFormed 6) := by decide

/-- The table's decoder reads the first word from the low 64 bits and the literal above it. -/
theorem test_decode_table_word :
    decodeTableWord 64 0x0460000140000009 = some (.sread { zE with sd := 5, imm16 := 9 }) ∧
      decodeTableWord 128 (0x12345678 * 2 ^ 64 + 0x2009040400000800) =
        some (.vadd { zV with lx := 1, km := 1, vd := 2, va := 1, bsc := 1, lit := 0x12345678 }) := by decide

/-- The next step after a word is placed runs it: NOP counts in PROG and the split goes on at the next word. -/
theorem test_step_runs_placed_word :
    yes (step (State.reset.withFetchWord 64 0x0400000000000000)) fun t =>
      (group0 t).prog == 1 && (group0 t).splits.all fun p => p.pc == 8 := by decide

/-! ### States that meet the hypotheses of the statements -/

/-- ScalarArithmetic, ScalarLogicAndShifts, LaneArithmetic, LaneLogicAndShifts, LaneFieldsAndMoves, MaskLogic,
LaneCompares, FloatCompares, FloatArithmetic, FloatSigns, FloatToIntegral, FloatFunctions, QuadExchanges, Shuffles, Ballot,
Compaction, NopYieldIcinv: an issuing split. -/
theorem witness_ctx : (mk gr bl).ctx? = some (seen gr bl sp) := rfl

/-- ScalarComparesAndMoves: the same, and an even register for the long form of SLI. -/
theorem witness_ScalarComparesAndMoves :
    (mk gr bl).ctx? = some (seen gr bl sp) ∧ ({ zS with lx := 1, imm := 1, sd := 62 } : FmtS).sd.toNat % 2 = 0 :=
  ⟨rfl, rfl⟩

/-- MasksAndLanesToScalars: VMOVS from the last lane that takes part, and from the first that does not. -/
theorem witness_MasksAndLanesToScalars :
    ((seen gr bl sp).participants 0).getLsbD 3 = true ∧ ((seen gr bl sp).participants 0).getLsbD 4 = false := by decide

/-- CodesRoundToThemselves: the largest code of a format without specials, and an infinity. -/
theorem witness_CodesRoundToThemselves : e2m1.decode 15 ≠ .nan ∧ fp16.decode 0x7C00 ≠ .nan := by decide

/-- FloatNaNs: a NaN operand; a value that is not 0; and ∞ × 1 − ∞, in both forms of a fused instruction. -/
theorem witness_FloatNaNs : (FVal.nan = .nan ∨ FVal.inf true = .nan) ∧ bf16 ∈ [fp32, bf16, fp16] ∧ (1 : Nat) ≠ 0 ∧
    FVal.inf true = .inf (false == false) ∧ FVal.inf false = .inf (false != false) := by decide

/-- FloatMinMax: codes below the width, one NaN and none. -/
theorem witness_FloatMinMax : fp16.decode 0xFFFF = .nan ∧ (0xFFFF : Nat) < 2 ^ fp16.width ∧
    ¬(fp32.decode 0x80000000 = .nan ∨ fp32.decode 0 = .nan) := by decide

/-- FloatToIntegral: a NaN, an infinity, a zero and a fraction. -/
theorem witness_FloatToIntegral : fp16.decode 0x7E00 = .nan ∧ fp16.decode 0xFC00 = .inf true ∧
    (match fp16.decode 0x8000 with | .fin _ 0 _ _ => true | _ => false) = true ∧
    (match fp16.decode 0x3800 with | .fin false (_ + 1) _ _ => true | _ => false) = true := by decide

/-- Conversions: VPACK from I32 and from F32, and VUNPK. -/
theorem witness_Conversions : (zV.ty = 0 ∨ zV.ty = 2) ∧ ({ zV with ty := 2 } : FmtV).ty = 2 ∧ zV.rm = 0 ∧ zV.sat = 0 := by
  decide

/-- Chains: the integer sum and the float minimum are accepted, XOR on I16 is not. -/
theorem witness_Chains : chainAccepts zV ∧ chainAccepts { zV with ty := 3, imm8 := 0x19 } ∧
    ¬ chainAccepts { zV with ty := 1, imm8 := 7 } ∧ partsOf zV (seen gr bl sp) = [0, 1, 2, 3] ∧ partsOf zV (seen gr bl sp) ≠ [] := by
  unfold chainAccepts; decide

/-- SpecialRegisters: the last index that is defined and the first that is not. -/
theorem witness_SpecialRegisters : (35, 0) ∈ specials (mk gr bl) (seen gr bl sp) ∧
    (36, 0) ∈ (if 36 ≤ (36 : BitVec 16).toNat then [((36 : BitVec 16).toNat, (0 : Word))] else []) := by decide

/-- SoftwareTraps, and every clause of another statement that says an instruction traps: the trap can be taken. -/
theorem witness_CanTrap : CanTrap (mk gr bl) (seen gr bl sp) 0x4000 :=
  ⟨rfl, rfl, rfl, 0, prog, rfl, rfl, rfl⟩

/-- SoftwareTraps: groups that a debugger has and has not claimed, and the reasons at their ends. -/
theorem witness_SoftwareTraps : sp.handler = false ∧ gr.claimed = false ∧ ({ gr with claimed := true } : Group).claimed = true ∧
    (mk { gr with claimed := true } bl).ctx? = some (seen { gr with claimed := true } bl sp) :=
  ⟨rfl, rfl, rfl, rfl⟩

/-- A group whose split 0 has trapped: the frozen split and its handler split. -/
def hsp : Split := { sp with handler := true, pc := 0x4000, place := 63 }
def trapped : Group :=
  { gr with trap := { active := true, cause := 14, split := 0, resume := some 0x108 }
            splits := [{ sp with wait := 4 }, hsp] }

/-- TrapReturn: a handler split issues and no trap waits. -/
theorem witness_TrapReturn : (mk trapped bl).ctx? = some (seen trapped bl hsp) ∧ hsp.handler = true ∧
    (∀ kg ∈ ((mk trapped bl).core 0).groups, kg.2.trap.pending = none) :=
  ⟨rfl, rfl, by decide⟩

/-- The frozen split resumes at the resume address, and TRAPCAUSE is 0 (R166, R224). -/
theorem test_tret : yes (exec (.tret zE) { mk trapped bl with cur := { split := 0 } }) fun t =>
    (group0 t).trap.cause == 0 && (group0 t).splits.map (fun p => (p.pc, p.wait)) == [(0x108, 0)] := by decide

/-- FatalTraps: a block without trap entry, in a launch that is not faulted. -/
theorem witness_FatalTraps : let b : Block := { bl with trapEntry := none }
    (mk gr b).ctx? = some (seen gr b sp) ∧ sp.handler = false ∧ gr.releasing = false ∧
      (b.trapEntry.bind fun i => (mk gr b).handler? b.launch i) = none ∧
      (mk gr b).launch? b.launch = some ln ∧ ln.fault = none := ⟨rfl, rfl, rfl, rfl, rfl, rfl⟩

/-- Branches: an even register pair, and pairs that are and are not an address (R137). -/
theorem witness_Branches : ({ zB with sa := 62 } : FmtB).sa.toNat % 2 = 0 ∧
    ((2 ^ 56 - 8) % 8 = 0 ∧ 2 ^ 56 - 8 < 2 ^ 56) ∧ ¬(4 % 8 = 0 ∧ 4 < 2 ^ 56) ∧ ¬(2 ^ 56 % 8 = 0 ∧ 2 ^ 56 < 2 ^ 56) := by decide

/-- A group with a releasing register 7, in its last cycle and in its third. -/
def releasing : Group := { gr with j := [(7, { state := 2, start := 5, expected := 0xF, arrived := 0xF })]
                                   splits := [{ sp with wait := 1, wj := 7 }] }

/-- RejoinRelease: both cases, with a waiter and without one. -/
theorem witness_RejoinRelease : ({ mk releasing bl with now := 7 } : State).group? 0 0 = some releasing ∧
    releasing.trap.pending = none ∧ (tget {} releasing.j 7).state = 2 ∧ (tget {} releasing.j 7).start + 2 ≤ 7 ∧
    ¬((tget {} releasing.j 7).start + 2 ≤ 6) ∧
    (releasing.running.filter fun p => decide (p.eff = 1 ∧ p.wj = 7)) ≠ [] := by decide

/-- A group of two splits, of lanes 0, 1 and 2, 3. -/
def two : Group := { gr with splits := [{ sp with exec := 3, domain := 3 }, { sp with id := 1, place := 1, exec := 12, domain := 12 }] }
def first : Split := { sp with exec := 3, domain := 3 }

/-- BarAndExit: one split of two, the only split, and a handler's split. -/
theorem witness_BarAndExit : (mk two bl).ctx? = some (seen two bl first) ∧ first.handler = false ∧
    1 < two.running.length ∧ gr.running.length ≤ 1 ∧ hsp.handler = true := ⟨rfl, rfl, by decide, by decide, rfl⟩

/-- A group with operands: s0 and s1, v1, and k1 with lanes 0 and 1. -/
def ops : Group := { gr with regs := { s := [(0, 0x1000), (2, 7)], v := [(96, 16), (97, 8), (98, 16), (99, 4)], k := [(1, 3)] } }

/-- Divisions of BDIV: no lane taken, all lanes taken, some lanes taken with room and without. -/
theorem witness_Divisions_bdiv : let cx := seen ops bl sp
    cx.sp.exec &&& ~~~cx.k 0 = 0 ∧ cx.sp.exec &&& cx.k 0 ≠ 0 ∧ cx.sp.exec &&& cx.k 1 ≠ 0 ∧
      cx.sp.exec &&& ~~~cx.k 1 ≠ 0 ∧ ((mk ops bl).core 0).newPlace 0 0 false = some 1 ∧ ops.splits.length ≤ 96 := by decide

/-- A core whose table has no free entry: a second group of 61 splits. -/
def full : Core :=
  { groups := [(0, ops), (1, { uid := 2, splits := (List.range 61).map fun i => { id := i, place := i + 1, wait := 2 } })]
    blocks := [(0, bl)] }

theorem witness_Divisions_full : (onCore full).ctx? = some (seen ops bl sp) ∧ full.newPlace 0 0 false = none ∧
    freeEntries full false = 0 := ⟨rfl, by decide, by decide⟩

/-- A group without operands that divide, and one whose lane 3 has a misaligned target. -/
theorem witness_Divisions_bdivx : let f : FmtB := { zB with sa := 1 }
    ((lanes ((seen ops bl sp).sp.exec &&& ~~~(seen ops bl sp).helpers)).find? fun l => laneTarget f (seen ops bl sp) l % 8 != 0) =
        some 3 ∧
      lanePaths zB (seen ops bl { sp with exec := 0 }) = [] ∧
      (lanePaths zB (seen ops bl sp)).length = 1 ∧
      (lanePaths f (seen ops bl { sp with exec := 7 })).length = 2 ∧ 1 ≤ freeEntries (co ops bl) false := by decide

/-- RejoinRegisters: RJSET and RJOIN at idle, armed and releasing registers, at issue and waiting. -/
theorem witness_RejoinRegisters : let r := { gr with j := [(7, { state := 1, expected := 0xF })] }
    (mk r bl).ctx? = some (seen r bl sp) ∧ (sp.wait = 0 ∨ sp.wait = 3) ∧ (tget {} r.j 7).state = 1 ∧
      (tget {} r.j 0).state = 0 ∧ (tget {} releasing.j 7).state = 2 ∧
      (∃ p ∈ ({ gr with splits := [sp, { sp with id := 1, wait := 1, wj := 7 }] } : Group).running, p.eff = 1 ∧ p.wj = 7) :=
  ⟨rfl, .inl rfl, rfl, rfl, rfl, by decide⟩

/-- The last arrival begins the release of its register (R159). -/
theorem test_rjoin_begins_release : let g : Group := { gr with j := [(2, { state := 1, expected := 0xF })] }
    yes (exec (.rjoin { zB with jr := 2 }) (mk g bl)) fun t =>
      decide ((tget {} (group0 t).j 2).state = 2 ∧ (tget {} (group0 t).j 2).arrived = 0xF ∧ (group0 t).splits.all fun p => p.wait = 1) := by
  decide

/-- A block with records of a line and of a register, as a rollback finds them. -/
def recorded : Block :=
  { bl with jrecs := [.line 0 2 [(64, 9)] false false, .vreg 0 1 1 [(96, 5)]]
            grecs := [(0, { uid := 1, s := [], split := sp, k := [], j := [], cvm := 0, cvtmo := 20000 })] }

/-- Rollback: a block that can be rolled back, and one whose interval is exposed; a handler's split. -/
theorem witness_Rollback : (mk gr recorded).block? 0 0 = some recorded ∧ recorded.ended = false ∧
    recorded.rolling = none ∧ (∀ m ∈ ((mk gr recorded).core 0).cmds, m.block ≠ 0) ∧ recorded.exposed = false ∧
    recorded.jfull = false ∧ (mk trapped recorded).ctx? = some (seen trapped recorded hsp) ∧ hsp.handler = true ∧
    ({ recorded with exposed := true } : Block).exposed = true := ⟨rfl, rfl, rfl, by decide, rfl, rfl, rfl, rfl, rfl⟩

theorem witness_Recorded : Recorded (co gr recorded) 0 recorded where
  sound := rfl
  forms := by
    intro r h
    simp only [recorded, List.mem_cons, List.not_mem_nil, or_false] at h
    rcases h with rfl | rfl <;> (simp only [recordForm]; decide)
  lines := by intro c a; simp only [recorded, List.filter, ofLine]; split <;> decide
  vregs := by intro g r; simp only [recorded, List.filter, ofVreg]; split <;> decide
  groups := by decide
  here := ⟨rfl, by intro kr h; simp only [recorded, List.mem_singleton] at h; subst h; exact ⟨0, gr, rfl, rfl, rfl⟩⟩
  numbered := by decide
  room := by decide

/-- A soft error puts the recorded line and register back (R219). -/
theorem test_soft_error_rollback : yes (exec (.softErrorRollback 0 0) (mk gr recorded)) fun t =>
    t.spadByte 0 64 == 9 && lane0 t 1 0 == 5 && (group0 t).stat == 16 := by decide

/-- A split that has issued a waiting instruction. -/
def waiting (a : Await) : Split := { sp with wait := 3, await := a }
def with1 (p : Split) : Group := { gr with splits := [p] }

/-- A store queued for bytes 64 to 67 of core 0, and a group with that store and one with a full queue. -/
def store : StoreOp := { home := 0, handle := none, cells := [(64, 1), (65, 2), (66, 3), (67, 4)] }
def storing : Group := { gr with q := { stores := [store], stIn := 1 } }
def fullQueue : Group := { gr with q := { stores := List.replicate 16 store, stIn := 16 } }

/-- Loads: each check of R173 at its boundary: the last word of the allocation, one byte and one word further, a
poisoned line and a stale handle. -/
theorem witness_Loads :
    let s : State := onCore { co gr bl with poison := [(3, true)] }
    let p := locOf 0 0 (seen gr bl sp) s
    s.ctx? = some (seen gr bl sp) ∧ zM.sz.toNat ≤ 4 ∧ accessCause s p true false 4092 4 = none ∧
      accessCause s p true false 4093 4 = some 3 ∧ accessCause s p true false 4096 4 = some 4 ∧
      accessCause s p true false 96 4 = some 7 ∧
      accessCause s (locOf 3 0x00100000 (seen gr bl sp) s) true false 0 4 = some 5 ∧
      ({ zM with vds := 60, sz := 4 } : FmtM).vds.toNat % 64 + accessWords { zM with vds := 60, sz := 4 } ≤ 64 ∧
      lowestBad (seen gr bl sp) (lanes ((seen gr bl sp).active 0)) (fun l => accessCause s p true false (4 * l) 4) = none :=
  ⟨rfl, by decide, by decide, by decide, by decide, by decide, by decide, by decide, by decide⟩

/-- A load of a word by lanes 0 and 3 into v2, one into s4, and a group in which each is the one to perform. -/
def load (uniform : Bool) : LoadOp :=
  { at_ := 4, stores := 1, split := 0, handler := false, uniform, dst := if uniform then 4 else 2, size := 4, home := 0
    lanes := if uniform then [(0, 64)] else [(0, 64), (3, 64)] }
def loading (uniform : Bool) : Group := { storing with q := { storing.q with loads := [load uniform], ldIn := 1 } }

theorem witness_Loads_perform (u : Bool) :
    let s : State := { mk (loading u) bl with now := 10 }
    s.group? 0 0 = some (loading u) ∧ (loading u).q.loads = load u :: [] ∧ (load u).at_ + 6 ≤ s.now ∧ (load u).size ≤ 16 ∧
      ((load false).uniform = false ∧ (∀ x ∈ (load false).lanes, x.1 < 96) ∧ ((load false).lanes.map (·.1)).Nodup) ∧
      (load true).uniform = true ∧ (load true).lanes = [(0, 64)] ∧ (load true).dst + 1 ≤ 64 ∧ sp.id = (load true).split :=
  ⟨rfl, rfl, Nat.le_refl 10, Nat.le_of_ble_eq_true rfl, by decide, rfl, rfl, by decide, rfl⟩

/-- A load sees the group's own queued store, low byte first (R12, R187). -/
theorem test_load_forwards : yes ({ mk (loading false) bl with now := 10 }.act (.load 0 0)) fun t =>
    lane0 t 2 0 == 0x04030201 && lane0 t 2 3 == 0x04030201 && lane0 t 2 1 == 0 && (group0 t).q.ldOut == 1 := by decide

/-- Stores: an empty and a full queue, a sealed range, and a queued store that can perform. -/
theorem witness_Stores :
    let s := mk gr { bl with seals := [(128, 32)] }
    let p := locOf 0 0 (seen gr { bl with seals := [(128, 32)] } sp) s
    ¬ 16 ≤ gr.q.stores.length ∧ 16 ≤ fullQueue.q.stores.length ∧ accessCause s p false true 156 4 = some 6 ∧
      accessCause s p false true 160 4 = none ∧ (mk storing bl).group? 0 0 = some storing ∧
      storing.q.stores = store :: [] ∧ (∀ l ∈ [load false], (0 : Nat) < l.stores) ∧ ∀ kg ∈ ((mk storing bl).core 0).groups, kg.2.ended = false := by decide

/-- Performing the store writes its bytes and counts it (R186). -/
theorem test_store_perform : yes (exec (.storePerform 0 0) (mk storing bl)) fun t =>
    t.spadByte 0 64 == 1 && t.spadByte 0 67 == 4 && t.spadByte 0 68 == 0 && (group0 t).q.stOut == 1 := by decide

/-- A group with reservations of lanes 0 and 1 on two granules. -/
def reserving : Group := { gr with resv := [(0, 0), (1, 8)] }

/-- Atomics: held by a queued store; a word and a pair; STCND with reservations, and STCMP's even pair. -/
theorem witness_Atomics : storing.q.stores ≠ [] ∧ (loading true).q.loads ≠ [] ∧ gr.q.stores = [] ∧ gr.q.loads = [] ∧ (2 : BitVec 3) = 2 ∧
    ({ zM with sz := 3 } : FmtM).sz = 3 ∧ zM.scope = 0 ∧ (reserving.resv.map (·.1)).Nodup ∧
    (mk reserving bl).ctx? = some (seen reserving bl sp) ∧ zM.sbase.toNat % 2 = 0 ∧
    lowestBad (seen reserving bl sp) [0, 1, 2, 3] (fun l => accessCause (mk reserving bl)
      (locOf 0 0 (seen reserving bl sp) (mk reserving bl)) false true (4 * l) 4) = none :=
  ⟨by decide, by decide, rfl, rfl, rfl, rfl, rfl, by decide, rfl, rfl, by decide⟩

theorem witness_Atomics_fp32 (f : FmtM) : Instr.aadd f ≠ Instr.afadd f := Instr.noConfusion

/-- Lanes of an atomic act one after another on one word: the old values are 0, 1, 2, 3 (R182). -/
theorem test_aadd_serial : let g : Group := { gr with regs := { v := (List.range 4).map fun l => (96 + l, 1) } }
    yes (exec (.aadd { zM with vds := 1, nov := 1 }) (mk g bl)) fun t =>
      t.spadByte 0 0 == 4 && lane0 t 1 0 == 0 && lane0 t 1 3 == 3 := by decide

/-- STCND: lane 0 finds its reservation of granule 0, lane 1 does not, and the group's reservations there are gone. -/
theorem test_stcnd : let g : Group := { reserving with resv := [(0, 0)], regs := { v := [(96, 5), (97, 6), (196, 0), (193, 4)] } }
    yes (exec (.stcnd { zM with vds := 1, voff := 2 }) (mk g bl)) fun t =>
      t.spadByte 0 0 == 5 && t.spadByte 0 4 == 0 && lane0 t 1 0 == 0 && lane0 t 1 1 == 1 && (group0 t).resv == [] := by decide

/-- Fences: the waits over and not over; a length of 0; a core range that fits, one byte too long, sealed too often
and still being written; a global range that is good and one that crosses dies; and each standing wait. -/
theorem witness_Fences_fence : FenceOver (mk gr bl) (seen gr bl sp) 0 0 [] ∧ sp.await = .none ∧
    ¬ FenceOver (mk storing bl) (seen storing bl sp) 1 0 [] ∧
    (mk (with1 (waiting (.fence 1 0 []))) bl).ctx? =
      some (seen (with1 (waiting (.fence 1 0 []))) bl (waiting (.fence 1 0 []))) :=
  ⟨⟨by decide, by decide⟩, rfl, fun h => absurd h.1 (by decide), rfl⟩

theorem witness_Fences_seal :
    let sealed : Block := { bl with seals := List.replicate 16 (0, 32) }
    bl.usable = 4096 ∧ ¬ bl.usable < 4064 + 32 ∧ bl.usable < 4064 + 33 ∧ 16 ≤ ((mk gr sealed).core 0).sealsUsed ∧
      ¬ 16 ≤ ((mk gr bl).core 0).sealsUsed ∧ (mk storing bl).spadBusy 0 5 64 4 = true ∧
      (mk storing bl).spadBusy 0 5 68 4 = false ∧
      (let a : Nat := 3 * 2 ^ 53; a < 2 ^ 56 ∧ a / 2 ^ 53 % 8 ≤ 3 ∧ (a + 64 - 1) / 2 ^ 53 % 8 = a / 2 ^ 53 % 8) ∧
      ¬ (5 * 2 ^ 53 / 2 ^ 53 % 8 ≤ 3) ∧ (2 ^ 53 - 32 + 64 - 1) / 2 ^ 53 % 8 ≠ (2 ^ 53 - 32) / 2 ^ 53 % 8 := by decide

theorem witness_Fences_waits : (waiting (.answered 1)).await = .answered 1 ∧ (waiting (.answered 0)).await = .answered 0 ∧
    (waiting (.asked 4)).await = .asked 4 ∧ (waiting (.seal 4 0 32)).await = .seal 4 0 32 ∧
    (mk (with1 (waiting (.asked 4))) bl).ctx? = some (seen (with1 (waiting (.asked 4))) bl (waiting (.asked 4))) :=
  ⟨rfl, rfl, rfl, rfl, rfl⟩

/-- The 16 words of a command given the words that are not 0. -/
def words (l : List (Nat × Word)) : List Word := (List.range 16).map fun i => tget 0 l i

/-- A COPY of 64 bytes within the allocation, offset 0 to offset 256 (R57, R59, R194). -/
def copyWords : List Word := words [(0, 1), (1, 64), (3, 0x80000000), (4, 256), (5, 0x80000000)]
def pushing : Group := { gr with regs := { s := [(0, 1), (1, 64), (3, 0x80000000), (4, 256), (5, 0x80000000)] } }

/-- That COPY accepted by the group in slot 0 as number 7. -/
def cmd : Cmd :=
  { seq := 7, queue := 0, w := copyWords, slot := 0, uid := 1, block := 0, buid := 5, interval := 0, vf := 0
    asid := 0, launch := 0 }

/-- CommandsAndBatches: no launched lane; a queue that does not exist, the last that does, and a privileged one; a
command that passes its checks, one that fails; a full queue; and 16 open batches. -/
theorem witness_CommandsAndBatches :
    (seen gr bl { sp with domain := 0 }).anyLaunched = false ∧ (seen gr bl sp).anyLaunched = true ∧
      6 < (7 : BitVec 8).toNat ∧ (6 : BitVec 8).toNat ≤ 6 ∧ bl.priv = false ∧ ({ bl with priv := true } : Block).priv = true ∧
      (formatCheck copyWords 0).or (extentCheck (mk pushing bl) (seen pushing bl sp) copyWords) = none ∧
      (formatCheck copyWords 1).isSome = true ∧
      32 ≤ (({ co pushing bl with cmds := List.replicate 32 cmd } : Core).cmds.countP fun m =>
        decide (m.queue = 0 ∧ m.startedAt = none)) ∧
      gr.cmds.batchNo - gr.cmds.batchDone ≠ 16 ∧ (16 : Word) - 0 = 16 := by decide

/-- PUSH accepts the COPY: s[SD] is 0, P is 1 and the engine holds the command (R191). -/
theorem test_push : yes (exec (.push { zE with sd := 20 }) (mk pushing bl)) fun t =>
    scalar0 t 20 == 0 && (group0 t).cmds.p == 1 && (t.core 0).cmds.map (·.w) == [copyWords] := by decide

/-- BCLOSE makes batch 1 of the unclosed set (R195). -/
theorem test_bclose : let g : Group := { gr with cmds := { unclosed := { open_ := 1, count := 1 }, p := 1 } }
    yes (exec (.bclose { zE with sd := 20 }) (mk g bl)) fun t =>
      scalar0 t 20 == 1 && (group0 t).cmds.batchNo == 1 && (group0 t).cmds.batchDone == 0 && (group0 t).cmds.unclosed == {} := by
  decide

/-- A group whose batches 1 and 2 have ended, the first with an error. -/
def batches : Group :=
  { gr with regs := { s := [(0, 2), (1, 3)] }
            cmds := { batchNo := 3, batchDone := 2, batches := [(1, { status := bsERROR }), (2, {}), (3, { open_ := 1 })] } }

/-- BatchWaits: a batch that is done, one that is not, one not made and batch 0; an unreported error and none. -/
theorem witness_BatchWaits :
    let k := batches.cmds
    looksAt (seen batches bl sp) 2 2 ∧ looksAt (seen batches bl (waiting (.word 3))) 9 3 ∧
      k.notMade 0 = true ∧ k.notMade 4 = true ∧ k.notMade 3 = false ∧ 2 ^ 31 ≤ (k.batchDone - 3).toNat ∧
      (k.batchDone - 2).toNat < 2 ^ 31 ∧ k.batches.filter (unreported 2) = [(1, { status := bsERROR })] ∧
      k.batches.filter (unreported 0) = [] ∧ k.t ≤ 0 / 4096 :=
  ⟨.inr ⟨rfl, rfl⟩, .inl rfl, by decide, by decide, by decide, by decide, by decide, by decide, by decide, by decide⟩

/-- RESID with size 4: lane 3's element fits the allocation exactly from 4080, and not from 4084 (R202). -/
theorem witness_BatchWaits_resid : 1 ≤ (4 : BitVec 16).toNat ∧ (4080 + 3 * 4) % 2 ^ 32 + 4 ≤ bl.usable ∧
    ¬ ((4084 + 3 * 4) % 2 ^ 32 + 4 ≤ bl.usable) := by decide

/-- A message to channel 3 of core 1, and one posted receive. -/
def msg : Msg := { kind := 0, chan := 3, dest := 0x00100040, grid := 0, payload := [11, 12], src := 2, srcSlot := 0, srcUid := 9, part := 0 }
def post : Posted := { num := 4, chan := 3, isV := false, dst := 16, sa := 5, lanes := 0, split := 0 }

/-- Messages: destinations with and without reserved bits; channels that are free, the block's and another's, and 63;
8 posted receives; and RECVT's registers. -/
theorem witness_Messages : let x : Core := { co gr bl with chans := [(3, { gen := 1, block := 0, state := 1, msgs := [msg] }),
                                                                    (4, { gen := 1, block := 2, state := 1 })] }
    badDest 0x00104000 = true ∧ badDest 0x001F3FC0 = true ∧ badDest 0x00103FC0 = false ∧ mayReceive x 0 3 ∧ mayReceive x 0 5 ∧
      mayReceive x 0 63 ∧ ¬ mayReceive x 0 4 ∧
      8 ≤ ({ gr with q := { posted := List.replicate 8 post } } : Group).q.posted.length ∧
      (16 : BitVec 6).toNat % 16 = 0 ∧ (16 : BitVec 6).toNat < 48 ∧ (15 : BitVec 6).toNat < (16 : BitVec 6).toNat ∧
      ((tget {} x.chans 3).msgs.map fun m => (m.payload, m.src))[0]? = some ([11, 12], 2) ∧ (tget {} x.chans 5).msgs = [] :=
  ⟨by decide, by decide, by decide, .inr (.inr ⟨rfl, rfl⟩), .inr (.inl rfl), .inl rfl,
    fun h => by rcases h with h | h | h <;> revert h <;> decide, by decide, by decide, by decide, by decide, by decide, rfl⟩

/-- SEND hands out one message with its words and counts it in S (R205, R210). -/
theorem test_send : let g : Group := { gr with regs := { s := [(1, 0x00100040), (8, 11), (9, 12)] } }
    yes (exec (.send { zE with sa := 8, sb := 1, ch := 3, imm16 := 2 }) (mk g bl)) fun t =>
      (group0 t).cmds.s == 1 && (group0 t).q.out.map (fun o => (o.msg.chan, o.msg.dest, o.msg.payload)) == [(3, 0x00100040, [11, 12])] := by
  decide

/-- An active message for handler 0 of launch 0. -/
def amsg : Msg := { msg with kind := 1, grid := 0, chan := 0 }

/-- A core with a message landing on a channel, a posted receive, a NACK and an active message. -/
def mail : Core :=
  { co { gr with q := { posted := [post] }, cmds := { r := 1 } } bl with
    chans := [(3, { gen := 1, block := 0, state := 1, msgs := [msg] })], landing := [msg], tables := [0]
    amq := [amsg], nacks := [{ msg with kind := 2, nack := 1, srcUid := 1 }] }

/-- MessageEvents: an arrival with the channel's generation, an old one, a free channel; a receive to fill; a NACK of
the group; an active message that enters, one without handler; and a handler start with room. -/
theorem witness_MessageEvents :
    let s := onCore mail
    (s.core 0).landing = msg :: [] ∧ msg.kind = 0 ∧ (s.core 0).resetBy = [] ∧
      s.chanVf 0 (tget {} (s.core 0).chans 3) = some msg.part ∧ (tget {} (s.core 0).chans 3).gen = msg.dest.toNat / 2 ^ 20 ∧
      (tget {} (s.core 0).chans 3).gen ≠ (0x00200040 : Word).toNat / 2 ^ 20 ∧ (tget {} (s.core 0).chans 4).state = 0 ∧
      (tget {} (s.core 0).chans 3).msgs.length < 4 ∧ post.dst + 16 ≤ 56 ∧ post.sa < post.dst ∧ post.sa < 56 ∧
      (tget {} (s.core 0).chans 3).msgs = msg :: [] ∧
      (∀ kg ∈ (s.core 0).groups, ∀ q ∈ kg.2.q.posted, q.chan = 3 → q = post ∨ post.num < q.num) ∧
      ({ mail with landing := [amsg] } : Core).landing = amsg :: [] ∧ amsg.kind = 1 ∧ s.amFate 0 amsg = .enter ∧
      s.handler? 0 1 = none ∧ (s.core 0).ambacking = [] ∧ (s.core 0).amq = amsg :: [] ∧ (s.core 0).nacks ≠ [] ∧
      s.launch? 0 = some ln ∧ s.handler? 0 0 = some prog ∧ s.launch? 7 = none := by decide

set_option maxRecDepth 20000 in
/-- MessageEvents: a channel that holds 4 messages, one of a context-saved block with room and without. -/
theorem witness_MessageEvents_full :
    let x (k : Chan) : State := onCore { mail with chans := [(3, k)], saved := [{ slot := 0, block := bl, groups := [] }] }
    let e (n b state : Nat) : Chan := { gen := 1, block := 0, state, msgs := List.replicate n msg, backing := List.replicate b msg }
    (x (e 4 0 1)).chanVf 0 (e 4 0 1) = some msg.part ∧ (x (e 2 0 2)).chanVf 0 (e 2 0 2) = some msg.part ∧
      (e 4 0 1).gen = msg.dest.toNat / 2 ^ 20 ∧ (e 4 0 1).state = 1 ∧ 4 ≤ (e 4 0 1).msgs.length ∧ (e 2 0 1).backing = [] ∧
      2 ≤ (e 2 0 2).state ∧ (e 2 255 2).backing.length < 256 ∧ 256 ≤ (e 2 256 2).backing.length := by decide

theorem witness_Room : Room (onCore mail) 0 0 1 prog.foot (allocSize prog.spad) := ⟨by decide, rfl, rfl⟩

/-- A receive takes the message: payload in s16 up, the status word in s5, R back at 0 (R206, R207). -/
theorem test_receive_fill : yes (exec (.receiveFill 0 0 3) (onCore mail)) fun t =>
    scalar0 t 16 == 11 && scalar0 t 17 == 12 && scalar0 t 18 == 0 && scalar0 t 5 == 0x00102002 && (group0 t).cmds.r == 0 := by
  decide

/-- A task descriptor that is good, and one bad in each word; depths 3 and 4; a running and an ended task (R228). -/
theorem witness_Tasks : let s := mk gr bl
    badDescriptor s 0 0 0x00000104 4096 = none ∧ badDescriptor s 0 64 0x00000104 4096 = some 0 ∧
      badDescriptor s 0 0 0x00000161 4096 = some 1 ∧ badDescriptor s 0 0 0x00060104 6143 = some 2 ∧
      badDescriptor s 0 0 0x00060104 6144 = none ∧ bl.depth < 4 ∧ (taskAt s 0 0).state = 0 ∧ bl.task = none ∧
      ({ bl with task := some (0, 3, 1) } : Block).task = some (0, 3, 1) := by decide

/-- SPAWN queues the task in entry 0 and writes its handle (R227, R229). -/
theorem test_spawn : let g : Group := { gr with regs := { s := [(13, 0x00000104), (14, 4096), (15, 77)] } }
    yes (exec (.spawn { zE with sa := 12, sd := 3 }) (mk g bl)) fun t =>
      scalar0 t 3 == 0x00100000 && (taskAt t 0 0).state == 1 && (taskAt t 0 0).arg == 77 && (taskAt t 0 0).depth == 1 := by
  decide

/-- TJOIN of an ended task, of a running one and of a stale handle. -/
theorem witness_Tasks_join : let s := onCore { co gr bl with tasks := [(0, { gen := 1, state := 5 }), (1, { gen := 1, state := 3 })] }
    (s.taskOf 0 0x00100000).map (·.2.2.state) = some 5 ∧ (s.taskOf 0 0x00100100).map (·.2.2.state) = some 3 ∧
      s.taskOf 0 0x00200000 = none ∧ looksAt (seen gr bl sp) 0x00100000 0x00100000 := ⟨rfl, rfl, rfl, .inr ⟨rfl, rfl⟩⟩

/-- A queued task of core 0. -/
def task : Task := { gen := 1, state := 1, order := 3, entry := 0, lanes := 4, foot := 16, spad := 512, arg := 77, depth := 1, spawner := 1 }
def tasked : State := onCore { co gr bl with tasks := [(2, task)] }

/-- TaskEvents: the oldest task, and a core with room; a thief of the same die; a lease that stands, one that ran out
and a report of a running task. -/
theorem witness_TaskEvents : (tasked.core 0).oldestTask = some (2, task) ∧ tasked.handler? task.launch task.entry = some prog ∧
    taskCores 0 = [] ++ 0 :: (taskCores 0).tail ∧ (1 : Nat) ≠ 0 ∧ 1 / 64 = 0 / 64 ∧ 1 / 4 = 0 / 4 ∧
    tasked.eligible 1 = false ∧ (tasked.core 1).hasRoom 1 task.foot (allocSize task.spad) = true := by decide

theorem witness_TaskEvents_room : Room tasked 0 task.vf 1 task.foot (allocSize task.spad) := ⟨by decide, rfl, rfl⟩

def record9 : Stolen := { victim := 0, tslot := 2, gen := 1, lease := 9, task := task }
def stolen : State :=
  { onCore { co gr bl with tasks := [(2, { task with state := 2, lease := 9, leaseAt := 4 })] } with
    cores := [(0, { co gr bl with tasks := [(2, { task with state := 2, lease := 9, leaseAt := 4 })], acks := [(1, record9)] }),
              (1, { stolen := [record9] })]
    now := 65539, reports := [(0, 2, 1, 0)] }

theorem witness_TaskEvents_lease : (stolen.core 0).ackOf 2 1 = some (1, record9) ∧
    stolen.handler? record9.task.launch record9.task.entry = some prog ∧
    (taskAt stolen 0 2).gen = 1 ∧ (taskAt stolen 0 2).state = 2 ∧ (taskAt stolen 0 2).lease = record9.lease ∧ (10 : Nat) ≠ 9 ∧
    stolen.now < (taskAt stolen 0 2).leaseAt + 65536 ∧ (taskAt stolen 0 2).leaseAt + 65536 ≤ 65540 ∧
    stolen.reports[0]? = some (0, 2, 1, 0) := by decide

theorem witness_TaskEvents_lease_room : Room stolen 1 task.vf 1 task.foot (allocSize task.spad) := ⟨by decide, rfl, rfl⟩

/-- A block of a gang of one with a buffer that it holds and one in its queue 5. -/
def holding (n : Nat) : Core :=
  { co { gr with regs := { s := [(0, 0x00100000)] } } { bl with hq := [(5, List.replicate n 0x00100400)] } with
    bufs := [(0, { gen := 1, state := 1, len32 := 2 }), (1, { gen := 1, state := 2, hq := 5, len32 := 1 })] }

/-- Handles: a good handle, a stale one and one of nothing; a gang too small; a queue empty, with a handle, and full; a
make form that fits to the last byte and one that does not; and a table with no free entry. -/
theorem witness_Handles : let s := onCore (holding 1)
    s.handleReason 0 0 0x00100000 = 0 ∧ s.handleReason 0 0 0x00200000 ≠ 0 ∧ s.handleReason 0 0 0 ≠ 0 ∧
      ¬ bl.gangSize ≤ 0 ∧ bl.gangSize ≤ 1 ∧ s.queueOf 0 ((s.block? 0 0).getD {}) 4 = [] ∧
      s.queueOf 0 ((s.block? 0 0).getD {}) 5 = [0x00100400] ∧
      16 ≤ ((onCore (holding 16)).queueOf 0 (((onCore (holding 16)).block? 0 0).getD {}) 5).length ∧
      ¬ bl.usable < 4064 + 32 ∧ bl.usable < 4064 + 64 ∧ (tget {} (s.core 0).bufs 2).state = 0 ∧
      (tget {} (s.core 0).bufs 2).gen < 4096 := by decide

theorem witness_Handles_waits : let p := waiting (.give 0x00100000 3 1 0 5)
    let g := with1 p
    let s := onCore { holding 1 with groups := [(0, g)] }
    s.ctx? = some (seen g ((s.block? 0 0).getD {}) p) ∧ s.handleReason 0 0 0x00100000 = 0 ∧
      busyHandle s (seen g bl p) 0x00100000 3 ∧ giveBusy s (seen g bl p) 0x00100000 0 = false ∧
      (waiting (.drop 0x00100000 0)).await = .drop 0x00100000 0 :=
  ⟨rfl, by decide, .inr (.inr (.inr (by decide))), by decide, rfl⟩

/-- Handles: a give that issued before waits for the same queue, and another for a queue of its own (R246). -/
theorem witness_Handles_later :
    let g := { gr with splits := [sp, { waiting (.give 0x00100000 0 3 0 5) with id := 1 }] }
    givesLater (seen g bl sp) { zE with ch := 5 } 4 ∧ ¬ givesLater (seen g bl sp) { zE with ch := 5 } 3 ∧
      giveBefore (seen g bl sp) 0 6 4 = false := by
  refine ⟨⟨_, List.mem_cons_of_mem _ (List.mem_singleton.2 rfl), rfl, _, _, _, rfl, by decide⟩, ?_, by decide⟩
  rintro ⟨p, hp, he, h, st, m, ha, hm⟩
  simp only [seen, List.mem_cons, List.not_mem_nil, or_false] at hp
  rcases hp with rfl | rfl
  · simp [sp, Split.eff] at he
  · simp only [waiting, Await.give.injEq] at ha; omega

/-- Handles: block 0 of the gang resident, context-saved, and ended. -/
theorem witness_Handles_where :
    let s := mk gr bl
    let other : Block := { bl with gang := 1 }
    let u := onCore { co gr other with saved := [{ slot := 3, block := bl, groups := [] }] }
    (match s.gangBlock (seen gr bl sp) 0 with | .here c b _ => c == 0 && b == 0 | _ => false) = true ∧
      (match u.gangBlock (seen gr bl sp) 0 with | .saved c v => c == 0 && v.slot == 3 | _ => false) = true ∧
      u.inQueue bl.uid 5 = 0 ∧ (onCore { holding 0 with
        bufs := List.replicate 16 (0, { gen := 1, state := 2, hq := 5, buid := bl.uid }) }).inQueue bl.uid 5 = 16 ∧
      (match (mk gr other).gangBlock (seen gr bl sp) 0 with | .gone => true | _ => false) = true := by decide

/-- Handles: no HTAKE waits at queue 5, and one that came there before arrival 4 and not before arrival 3. -/
theorem witness_Handles_takers : let g := { gr with splits := [sp, { sp with id := 3, wait := 3, await := .take 5 3 }] }
    takersBefore (mk gr bl) (seen gr bl sp) 5 4 = 0 ∧ takersBefore (mk g bl) (seen g bl sp) 5 4 = 1 ∧
      takersBefore (mk g bl) (seen g bl sp) 5 3 = 0 ∧ (waiting (.take 5 3)).await.arrival 9 = 3 ∧
      sp.await.arrival 9 = 9 := by decide

/-- HTAKE takes the oldest handle of its queue (R251). -/
theorem test_htake : yes (exec (.htake { zE with sd := 9, ch := 5 }) (onCore (holding 1))) fun t =>
    scalar0 t 9 == 0x00100400 && (tget {} (t.core 0).bufs 1).state == 1 && (t.block? 0 0).any (·.hq == []) := by decide

/-! ### The matrix engine and convoys -/

/-- A loop of one K-step on one row: INT8 operands, INT32 accumulator, Z (R86, R261). -/
def ent : MEntry :=
  { num := 0, slot := 0, kind := 2, core := 0, gslot := 0, uid := 1, block := 0, buid := 5, launch := 0, gang := 0
    split := 0, tile := 1, imm := 0x11, fmt := 0x4088, cvm := 0, a := [0, 1, 1, 0], b := [0, 0, 0, 0], at_ := 0 }
def big : Block := { bl with size := 131072 }
def engine (e : MEntry) (now : Nat) : State := { mk gr big with clusters := [(0, { entries := [e], nextNum := 1 })], now }

/-- A group whose s8 up and s12 up hold that loop's words, s16 up a drain's of one row, and whose fmt is its format. -/
def msp : Split := { sp with fmt := 0x4088 }
def mgr : Group := { gr with regs := { s := [(9, 1), (10, 1), (17, 1)] }, splits := [msp] }

/-- MatrixInstructions: nothing taken without a launched lane, held by a store, an engine that is offline, a status, a
range that ends at the allocation and one that does not, a full table; and MDRAIN's waits. -/
theorem witness_MatrixInstructions :
    let cx := seen mgr big msp
    let s := mk mgr big
    (seen mgr big { msp with domain := 0 }).anyLaunched = false ∧ cx.anyLaunched = true ∧ storing.q.stores ≠ [] ∧
      ({} : Cluster).offline = false ∧ loopStatus [0, 1, 1, 0] [0, 0, 0, 0] cx.sp.fmt false = none ∧
      loopStatus [0, 0, 1, 0] [0, 0, 0, 0] cx.sp.fmt false = some (6, 0) ∧ loopStatus [0, 1, 1, 0] [0, 0, 0, 0] 5 false ≠ none ∧
      mtxRanges s cx [{ opnd := 1, h := 0, off := 65536, len := 65536 }] = none ∧
      (mtxRanges s cx [{ opnd := 1, h := 0, off := 65792, len := 65536 }]).isSome = true ∧
      drainStatus [0, 1, 0, 0] cx.sp.fmt 0 false = none ∧ cx.sp.await = .none ∧
      ({ entries := (List.range 16).map fun i => { ent with slot := i } } : Cluster).freeSlot = none := by decide

theorem witness_MatrixInstructions_waits : let g := with1 (waiting .drained)
    (mk g big).ctx? = some (seen g big (waiting .drained)) ∧ (waiting .drained).await = .drained ∧
      (waiting (.drain 4)).await = .drain 4 := ⟨rfl, rfl, rfl⟩

/-- MLOOP enters the table and counts in T (R258, R260). -/
theorem test_mloop : yes (exec (.mloop { zE with sa := 8, sb := 12, imm16 := 0x11 }) (mk mgr big)) fun t =>
    (group0 t).cmds.t == 1 && (t.cluster 0).entries == [ent] && (t.block? 0 0).any (·.exposed) := by decide

/-- MatrixEvents: a loop whose pass is granted, aged, complete, in error and replayed. -/
theorem witness_MatrixEvents_loop :
    let x := (engine ent 65535).cluster 0
    x.choice = some ent ∧ (∀ f ∈ x.entries, f.ageDue 65535 = false) ∧ (engine ent 0).grantStatus x ent = none ∧
      badScales ((engine ent 0).stepScales x ent) = none ∧ ent.loop.m ≤ 256 ∧ x.entryAt? 0 = some ent ∧
      ent.ageDue 65536 = true ∧ ({ ent with state := 1, step := 1 } : MEntry).step = ent.loop.ks ∧
      0 < ({ ent with state := 1, step := 1 } : MEntry).step ∧ 255 < 256 ∧ 0 < ent.loop.m := by decide

/-- MatrixEvents: a loop whose checker found a pass of its first step wrong, and one that has run its step. -/
theorem witness_MatrixEvents_mism :
    let e : MEntry := { ent with mism := [(0, 0, 5, 1)] }
    let r : MEntry := { ent with state := 1, ran := true, step := 1 }
    ((engine e 0).cluster 0).choice = some e ∧ (∀ f ∈ ((engine e 0).cluster 0).entries, f.ageDue 0 = false) ∧
      (engine e 0).grantStatus ((engine e 0).cluster 0) e = none ∧
      (e.mism.find? fun m => m.1 == e.step) = some (e.step, 0, 5, 1) ∧
      (ent.mism.find? fun m => m.1 == ent.step) = none ∧ r.ran = true ∧ r.step = r.loop.ks ∧
      (∀ f ∈ ((engine r 0).cluster 0).entries, f.num = r.num → f = r) := by decide

set_option maxRecDepth 20000 in
theorem witness_MatrixEvents_reads : (engine ent 0).readFault ((engine ent 0).stepReads {} ent 0) = none := by decide

/-- MatrixEvents: a plane load, a swap, a drain and a zeroing, each free to run; an operand fault. -/
theorem witness_MatrixEvents_others :
    let e (k : Nat) : MEntry := { ent with kind := k, a := [0, 1, 0, 0], b := [0] }
    (∀ k < 5, ((engine (e k) 0).cluster 0).free (e k) = true) ∧ ((engine (e 3) 0).cluster 0).draining = false ∧
      ((engine { e 3 with state := 1 } 17).cluster 0).offline = false ∧ 0 + (16 + (drainDesc (e 3).a).rows) ≤ 17 ∧
      0 < (drainDesc (e 3).a).rows ∧ (drainDesc (e 3).a).rows - 1 ∉ (e 3).skip ∧ cvmField 0 (fmtOUTF ent.fmt) % 8 ≠ 4 ∧
      (engine { e 0 with buid := 6 } 0).readFault [(engine { e 0 with buid := 6 } 0).planeRead { e 0 with buid := 6 }] =
        some (1, false) ∧ (engine (e 0) 0).posted (e 0) = true := by decide

set_option maxRecDepth 20000 in
theorem witness_MatrixEvents_plane : let e : MEntry := { ent with kind := 0, a := [0], b := [0] }
    (engine e 0).readFault [(engine e 0).planeRead e] = none := by decide

/-- ZERO_PERFORM clears its tile 272 cycles after it took the drain path (R269). -/
theorem test_zero_perform : let e : MEntry := { ent with kind := 4, state := 1 }
    let s := { engine e 272 with clusters := [(0, { entries := [e], acc := [(65536, 7), (131072, 8)] })] }
    yes (exec (.zeroPerform 0 0) s) fun t => (t.cluster 0).acc == [(131072, 8)] && (t.cluster 0).entries == [] := by decide

/-- MatrixEvents: a posted trap that can be delivered. -/
theorem witness_MatrixEvents_trap :
    let t0 : PendTrap := { split := 0, cause := 9, info := 0, pc := 0, resume := 0 }
    let g : Group := { gr with trap := { matrix := [t0] } }
    (mk g bl).group? 0 0 = some g ∧ g.trap.matrix = t0 :: [] ∧ g.trap.active = false ∧ g.trap.pending = none ∧
      g.ended = false ∧ g.releasing = false ∧ (g.splits.find? fun q => decide (q.id = t0.split)) = some sp ∧
      ((mk g bl).core 0).trapOwner = none ∧ bl.trapEntry = some 0 ∧ (mk g bl).handler? bl.launch 0 = some prog := by decide

/-- Bytes of 8-byte words at addresses of a die. -/
def table (es : List (Nat × Nat)) : Tbl Byte :=
  es.foldl (fun t e => (List.range 8).foldl (fun t i => tset 0 t (e.1 + i) (BitVec.ofNat 8 (e.2 / 256 ^ i))) t) []

/-- A die whose ASID 0 maps its first GiB to VF 0's segment at 0 of 16 MiB: a root at 0 with one table at 0x20000 and
one leaf, 32-byte granule, readable, writable and resident (R338, R339, R342, R343). -/
def leafWord : Nat := 0xC170000000000000
def mapped : Die :=
  { plain := table [(0, 0x8000000000020000), (0x20000, leafWord)], asidT := [(0, 0x8000000000000000)]
    seg := [(0, 0x8000010000000000)], hostSeg := [(0, 0x8000010000000000)] }
def leaf : Leaf := leafOf (BitVec.ofNat 64 leafWord) 3
def onDie (x : Die) (b : State := mk gr bl) : State := { b with dies := [(0, x)] }

/-- The map reads as it was laid out. -/
theorem test_walk : mapped.walk 0 0 0x100020 = some (leaf, 2 ^ 30) ∧ mapped.translate 0 0 0x100020 1 =
    .ok { leaf, size := 2 ^ 30, pa := 0x100020, unit := 32 } ∧ mapped.translate 0 0 0x1000000 1 = .error bsERROR ∧
    mapped.translate 0 1 0x100020 1 = .error bsERROR := by decide

/-- A request to join a convoy on a stream from 0x100000 with rein 64, and a group that waits for its answer. -/
def join : Ask :=
  { id := 4, core := 0, slot := 0, uid := 1, split := 0, blockUid := 5, vf := 0, asid := 0, addr := 0x100000, len := 0, scope := 0, rein := 64 }
def joiner : Group := with1 (waiting (.asked 4))

/-- Convoys: no launched lane; a first join, a join of the same stream and of another; answers. -/
theorem witness_Convoys_join : sp.await = .none ∧ (seen gr bl { sp with domain := 0 }).anyLaunched = false ∧ gr.cv.id = 0 ∧
    (let g : Group := { gr with cv := { id := 0x00100000 } }
     let s := { mk g bl with dies := [(0, { convoys := [(0, { addr := 64, members := [(0, { core := 0, slot := 0, uid := 1, part := 0, state := 1 })] })] })] }
     s.inConvoy g 0 64 = true ∧ ¬(g.cv.id = 0 ∨ s.inConvoy g 0 128 = true) ∧ g.cv.id ≠ 0) ∧
    (waiting (.asked 4)).await = .asked 4 ∧ (waiting (.answered 2)).await = .answered 2 := by decide

/-- Convoys: an address that is not mapped, a rein of 0, one that is no multiple of the granule, the largest rein and one
more; the lowest slot that is free. -/
theorem witness_Convoys_answer : let s := { mk joiner bl with dies := [(0, { mapped with joins := [join] })] }
    (s.die 0).joins = join :: [] ∧ s.group? join.core join.slot = some joiner ∧ joiner.uid = join.uid ∧
      s.streamGranule join = some 32 ∧ s.streamGranule { join with addr := 2 ^ 55 } = none ∧ join.addr % 32 = 0 ∧
      (∃ p ∈ joiner.splits, p.await = .asked join.id) ∧ (s.die 0).convoyOf 0 join.addr = none ∧ 48 % 32 ≠ 0 ∧ 2 ^ 20 < 2 ^ 20 + 32 ∧ join.rein ≠ 0 ∧ join.rein % 32 = 0 ∧
      2 ^ 20 ≤ 2 ^ 20 ∧ (tget ({} : Convoy) (s.die 0).convoys 0).members = [] := by decide

/-- The first join creates convoy 0: code 1, member 0 (R298). -/
theorem test_convoy_answer : let s := { mk joiner bl with dies := [(0, { mapped with joins := [join] })] }
    yes (exec (.convoyAnswer 0) s) fun t => (group0 t).cv.slip == 64 && (group0 t).cv.id == 0x00100000 &&
      (group0 t).splits.map (·.await) == [.answered 1] := by decide

/-- Convoys: a bound on its way, and a timer at its limit. -/
theorem witness_Convoys_events :
    let m : Member := { core := 0, slot := 0, uid := 1, part := 0, state := 1, due := [(3, some 64)], here := [3] }
    let g : Group := { gr with cv := { id := 0x00100000, stat := 0x10, timer := 1024, tmo := 0 } }
    let v : Convoy := { addr := 64, rein := 64, members := [(0, m)] }
    tfind? [(0, v)] 0 = some v ∧ tfind? v.members 0 = some m ∧ m.due = (3, some 64) :: [] ∧ m.here.head? = some 3 ∧
      (m.due.find? fun x => x.1 == 3) = some (3, some 64) ∧ g.uid = m.uid ∧
      g.cv.id ≠ 0 ∧ g.cv.stat.toNat / 16 % 8 ∈ [1, 2, 4] ∧ max 1024 g.cv.tmo.toNat ≤ g.cv.timer ∧
      ¬ max 1024 g.cv.tmo.toNat ≤ 1023 := by decide

/-! ### Engine commands and memory -/

/-- A started command, on a core of its own group. -/
def cmdCore (m : Cmd) : Core := { co gr bl with cmds := [m] }
def started (m : Cmd) : Cmd := { m with startedAt := some 0, rest := [(0, m.total)] }

/-- EngineCommands: a command of each opcode's queue that is the next to start. -/
theorem witness_EngineCommands_start : cmd.op = 1 ∧ cmdAt (onCore (cmdCore cmd)) 0 7 = some cmd ∧ cmd.startedAt = none ∧
    ((onCore (cmdCore cmd)).core 0).nextOf cmd.queue = some cmd ∧
    (∀ y ∈ (cmdCore cmd).cmds, y.queue = cmd.queue → y.startedAt ≠ some 0) ∧ cmd.gathers = false ∧
    ({ cmd with w := words [(0, 8)] } : Cmd).gathers = true ∧ State.reset.entryFor (77, 6) = true := by decide

theorem witness_Acting : Acting (onCore (cmdCore (started cmd))) 0 (started cmd) :=
  ⟨by decide, by decide, rfl, by decide, by decide, by decide, rfl⟩

/-- EngineCommands: a COPY from the scratchpad to itself, at the end of a line. -/
theorem witness_EngineCommands_copy : let m := { started cmd with rest := [(31, 33)] }
    let s := onCore (cmdCore m)
    m.outbox = [] ∧ m.nextPos s 0 = some 31 ∧ m.gathers = false ∧ m.srcAt s 0 31 = some (.loc 31) ∧ m.dstAt s 0 31 = some (.loc 287) ∧
      s.spot 0 m (.loc 31) 1 = some (0, 31) ∧ m.pieceLen s 0 31 = 1 ∧
      s.spot 0 m (.loc 287) 1 = some (0, 287) ∧ s.spadPoisoned 0 31 1 = false ∧ m.aim.len = 0 ∧
      ({ m with aim := { pos := 31, len := 1 } } : Cmd).aim.len = 1 := by decide

/-- EngineCommands: the data of that COPY read and waiting to land, a FILL's likewise, and a GATHER's element. -/
theorem witness_EngineCommands_land :
    let m : Cmd := { started cmd with outbox := [(0, List.replicate 32 5, false, false)], rest := [(32, 32)] }
    let s := onCore (cmdCore m)
    let g : Cmd := { started cmd with queue := 1, w := words [(0, 4), (1, 4), (3, 0x80000000), (5, 0x80000000), (7, 4), (8, 2), (10, 128)] }
    m.aim = {} ∧ m.gathers = false ∧ m.phase = 0 ∧ (m.op = 6 → m.rest = []) ∧ 32 ≤ m.run 0 ∧ m.dstAt s 0 0 = some (.loc 256) ∧
      s.spot 0 m (.loc 256) 32 = some (0, 256) ∧ (∀ y ∈ m.waiting s 0, 0 ≤ y.1) ∧ g.op = 4 ∧ g.elem = 4 ∧
      (g.srcAt (onCore (cmdCore g)) 0 0).isSome = true ∧
      (∃ e, g.srcAt (onCore (cmdCore g)) 0 (0 - 0 % g.elem) = some e ∧ ((onCore (cmdCore g)).spot 0 g e g.elem).isSome = true) :=
  ⟨rfl, rfl, rfl, fun h => absurd h (by decide), by decide, by decide, by decide, by decide, rfl, by decide, by decide,
    _, rfl, by decide⟩

/-- The COPY's first act reads one line, which a later one lands (R188, R193). -/
theorem test_copy_act : let s := onCore { cmdCore (started cmd) with spad := [(0, 7), (31, 8), (32, 9)] }
    let again (t : State) := exec (.copy 0 7) t
    yes (again s) fun t => t.spadByte 0 256 == 0 && (cmdAt t 0 7).map (·.rest) == some [(32, 32)] &&
      yes (again t) fun u => u.spadByte 0 256 == 7 && u.spadByte 0 287 == 8 && u.spadByte 0 288 == 0 := by decide

/-- A COPY of 64 bytes from the mapped die to the scratchpad, and one the other way with a piece read. -/
def fetchWords : List Word := words [(0, 1), (1, 64), (2, 0x100000), (4, 256), (5, 0x80000000)]
def fetching : Cmd := started { cmd with w := fetchWords }
def putting : Cmd :=
  { started cmd with w := words [(0, 1), (1, 64), (3, 0x80000000), (4, 0x100000)], rest := [], outbox := [(32, List.replicate 32 5, false, false)] }

/-- EngineCommands: a read of a unit of the die, and the write of one. -/
theorem witness_EngineCommands_global :
    let s := onDie mapped (onCore (cmdCore fetching))
    let u := onDie mapped (onCore (cmdCore putting))
    fetching.srcAt s 0 0 = some (.glob 0x100000) ∧ fetching.stream = false ∧ s.unitAt 0 0 0x100000 = 32 ∧
      (State.sendReq { s with uidSeq := s.uidSeq + 1 } (unitRequest s 0 fetching 0 0x100000 32)).isSome = true ∧
      putting.pend = [] ∧ putting.dstAt u 0 32 = some (.glob 0x100020) ∧ u.isRemote putting = false ∧
      32 = min (putting.run 32) (u.unitAt 0 0 0x100020 - 0x100020 % u.unitAt 0 0 0x100020) ∧
      (∀ r ∈ putting.rest, r.1 + r.2 ≤ 32 ∨ 32 + 32 ≤ r.1) ∧ putting.aim = {} ∧
      (∀ y ∈ putting.waiting u 0, y.1 = 32 ∨ 0x100020 + 32 ≤ y.2.1) ∧ (u.fn putting.vf).contained = false ∧ fetching.nextPos s 0 = some 0 ∧ fetching.pieceLen s 0 0 = 32 ∧
      (∀ f ∈ u.fly, f.core = 0 → f.seq ≠ 7) := by decide

/-- EngineCommands: FILL, SCATTER, ATOM, PAGEREQ, TLBINV and a command that is over. -/
theorem witness_EngineCommands_others :
    let fill : Cmd := started { cmd with w := words [(0, 3), (1, 64), (5, 0x80000000), (10, 0x04030201)] }
    let scatter : Cmd :=
      { started cmd with queue := 1, rest := [], outbox := [(0, List.replicate 4 5, false, false)]
                         w := words [(0, 5), (1, 4), (3, 0x80000000), (5, 0x80000000), (7, 4), (8, 2), (10, 128)] }
    let atom : Cmd := started { cmd with queue := 2, w := words [(0, 6), (4, 0x100000), (10, 0x200), (12, 1)] }
    let page : Cmd := started { cmd with queue := 4, w := words [(0, 10), (1, 65536), (2, 0x100000)] }
    let inv : Cmd := started { cmd with queue := 5, w := words [(0, 11), (1, 64), (2, 0x100000)] }
    let s (m : Cmd) : State := onDie mapped (onCore (cmdCore m))
    (fill.op = 3 ∧ fill.nextPos (s fill) 0 = some 0 ∧ fill.dstAt (s fill) 0 0 = some (.loc 0) ∧ (s fill).spot 0 fill (.loc 0) (fill.pieceLen (s fill) 0 0) = some (0, 0)) ∧
      (scatter.op = 5 ∧ scatter.elem = 4 ∧ scatter.dstAt (s scatter) 0 0 = some (.loc 0) ∧
        (s scatter).spadSealed 0 0 4 = false) ∧
      (atom.op = 6 ∧ atom.rest ≠ [] ∧ placeAt atom.w 4 = some (.glob 0x100000) ∧
        (State.sendReq { s atom with uidSeq := 1 } { unitRequest (s atom) 0 atom 2 0x100000 4 with x := 1 }).isSome = true) ∧
      (page.op = 10 ∧ page.rest = [(0, 65536)] ∧ page.srcAt (s page) 0 0 = some (.glob 0x100000) ∧ mapped.walk 0 0 0x100000 = some (leaf, 2 ^ 30) ∧
        leaf.resident = true ∧ mapped.walk 0 0 0x4000000000 = none) ∧
      (inv.op = 11 ∧ inv.rest ≠ [] ∧ placeAt inv.w 2 = some (.glob 0x100000) ∧ (s inv).tlbOver inv = true ∧
        ∀ r ∈ ((s inv).die 0).replicas, ∀ i ∈ r.reads, (s inv).awaited i = false) := by decide

theorem witness_EngineCommands_over :
    let m := { started cmd with rest := [] }
    let s := onCore (cmdCore m)
    m.empty = false ∧ m.op ≠ 11 ∧ m.rest = [] ∧ m.pend = [] ∧ m.outbox = [] ∧ m.sub = 0 ∧ m.gathers = false ∧
      s.relOk 0 m = true ∧ (∀ kg ∈ (s.core 0).groups, kg.2.ended = false) ∧ m.due = 0 ∧
      (∀ f ∈ s.fly, f.core = 0 → f.seq ≠ 7) := by decide

/-! ### Memory -/

/-- A request at its stop for the unit at 0x100020 of the mapped die. -/
def req : Req :=
  { id := 9, core := 0, seq := 7, uid := 1, launch := 0, vf := 0, asid := 0, kind := 0, va := 0x100020, len := 32
    pa := 0x100020, unit := 32, leaf }
def home : Nat := stopOfPa 0x100020
def wr (n : Nat) : Req := { req with kind := 1, len := n, data := List.replicate n 5 }
def atomAdd : Req := { req with kind := 2, len := 4, op := 0, x := 3 }
def atStop (y : Stop) : State := onDie { mapped with stops := [(home, y)] }
def tag : Tag := { id := 9, core := 0, seq := 7, uid := 1, part := 0, lat := false, va := 0x100020 }
def fold : Fold := { num := 3, key := (req.pa, 0), req, tags := [tag], openedAt := 0 }

/-- MemoryEvents: a read that attaches and one that opens an entry; a request behind another one to a unit. -/
theorem witness_MemoryEvents_read : let s := atStop { inq := [req] }
    let a := atStop { inq := [req], folds := [fold] }
    let open_ (y : Stop) := (y.folds.filter fun f => decide (f.key = (req.pa, req.vf) ∧ f.req.unit = req.unit ∧
      f.copy = none ∧ f.done = false)).getLast?
    MayTake (s.stop 0 home) req ∧ MayTake (a.stop 0 home) req ∧
      MayTake { inq := [{ req with id := 8, pa := 0x100040 }, req] } req ∧ s.fixlat = false ∧ req.kind = 0 ∧
      (s.stop 0 home).folds.length < 256 ∧ open_ (s.stop 0 home) = none ∧ open_ (a.stop 0 home) = some fold ∧
      fold.closed = false ∧ fold.tags.length < 16 ∧ fold.poisoned = (req.recorded || req.quar) ∧
      fold.req.leaf.enc = req.leaf.enc ∧ fold.req.leaf.integ = req.leaf.integ ∧
      fold.poisoned ≠ ({ req with quar := true }.recorded || { req with quar := true }.quar) := by
  refine ⟨⟨by decide, by decide⟩, ⟨by decide, by decide⟩, ⟨by decide, by decide⟩, ?_⟩
  decide

/-- FOLD_READ_REQUEST attaches the read to the open entry (R280). -/
theorem test_fold_read : yes (exec (.foldReadRequest 0 home) (atStop { inq := [req], folds := [fold] })) fun t =>
    (t.stop 0 home).fmrg == 1 && (t.stop 0 home).folds.map (fun f => f.tags.map (·.va)) == [[0x100020, 0x100020]] := by decide

set_option maxRecDepth 20000 in
/-- MemoryEvents: a whole write, a partial one to a clean unit, one to a sealed range, one to a quarantined frame. -/
theorem witness_MemoryEvents_write :
    let s := onDie mapped
    let e : GSeal := { blockUid := 5, vf := 0, asid := 0, addr := 0x100000, len := 64, scope := 4 }
    (s.die 0).quarantined (wr 32).leaf (wr 32).pa = false ∧ meetsSeal s 0 (wr 32) (wr 32).data.length = false ∧
      (wr 32).data.length = granBytes (wr 32).leaf.gran ∧ (wr 4).data.length ≠ granBytes (wr 4).leaf.gran ∧
      meetsSeal (onDie { mapped with gseals := [e] }) 0 (wr 32) 32 = true ∧
      meetsSeal (onDie { mapped with gseals := [{ e with addr := 0x100040 }] }) 0 (wr 32) 32 = false ∧
      ((onDie { mapped with quarantine := [(16, 1)] }).die 0).quarantined (wr 32).leaf (wr 32).pa = true := by decide

/-- MemoryEvents: a write in flight of the current interval of its block, and one that a rollback has called off. -/
theorem witness_MemoryEvents_fly :
    let f : Fly := { id := 9, core := 0, uid := 1, seq := 7, launch := 0, vf := 0, owner := 0, die := 0, stage := 0
                     block := 0, buid := bl.uid, interval := bl.interval }
    let s := { atStop { inq := [wr 32] } with fly := [f] }
    (∀ f ∈ s.fly, f.id = 9 → f.off = false) ∧ (s.fly.find? fun f => decide (f.id = 9)) = some f ∧
      s.block? f.core f.block = some bl ∧ bl.uid = f.buid ∧ bl.interval = f.interval ∧
      (∃ g ∈ [{ f with off := true }], g.id = 9 ∧ g.off = true) := by decide

set_option maxRecDepth 20000 in
/-- STOP_WRITE of that write exposes its interval; called off, it does nothing (R217, R219). -/
theorem test_stop_write_exposes :
    let f : Fly := { id := 9, core := 0, uid := 1, seq := 7, launch := 0, vf := 0, owner := 0, die := 0, stage := 0
                     block := 0, buid := bl.uid, interval := bl.interval }
    let s (o : Bool) := { atStop { inq := [wr 32] } with fly := [{ f with off := o }] }
    yes (exec (.stopWrite 0 home) (s false)) (fun t => (t.block? 0 0).any (·.exposed) && t.fly == []) &&
      yes (exec (.stopWrite 0 home) (s true)) (fun t =>
        (t.block? 0 0).any (!·.exposed) && t.fly == [] && (t.die 0).hbm == (s true |>.die 0).hbm) := by decide

set_option maxRecDepth 20000 in
theorem witness_MemoryEvents_clean : Clean (onDie mapped) 0 (wr 4) (List.replicate 32 0) := by
  refine ⟨by decide, by decide, by decide⟩

set_option maxRecDepth 20000 in
/-- MemoryEvents: an atomic of 4 bytes at the end of its unit, and the data of a read. -/
theorem witness_MemoryEvents_atomic : let r := { atomAdd with va := 0x10003C }
    r.kind = 2 ∧ r.op < 12 ∧ r.len = 4 ∧ r.unit = granBytes r.leaf.gran ∧ r.va % r.unit + r.len ≤ r.unit ∧
      (List.replicate 32 (0 : Byte)).length = r.unit := by decide

set_option maxRecDepth 20000 in
theorem witness_MemoryEvents_data :
    ((((atStop { folds := [fold] }).stop 0 home).folds.find? fun g => decide (g.num = 3)) = some fold) ∧ fold.tags ≠ [] ∧
      fold.done = false ∧ fold.copy = none ∧ fold.poisoned = false ∧
      (∀ g ∈ ((atStop { folds := [fold] }).stop 0 home).folds.takeWhile (fun g => decide (g.num ≠ 3)), g.key.1 = req.pa → g.done = true) ∧
      (∀ r ∈ ((atStop { folds := [fold] }).stop 0 home).inq, r.kind ≠ 0 ∨ r.pa ≠ fold.key.1) ∧
      decodeUnit leaf 0 req.pa (mapped.stored 0 req.pa).1 (mapped.stored 0 req.pa).2 =
        .good (List.replicate 32 0) (List.replicate 32 0) false := by decide

set_option maxRecDepth 20000 in
/-- DRAM_DATA_ARRIVAL answers the tag with the unit as it stands when the read performs (R280, R348). -/
theorem test_dram_data : let s := onDie { mapped with
      stops := [(home, { folds := [fold] })]
      hbm := (mapped.store 0 req.pa (List.replicate 32 7) (sideBytes 0 (List.replicate 32 7) [])).hbm
      side := (mapped.store 0 req.pa (List.replicate 32 7) (sideBytes 0 (List.replicate 32 7) [])).side }
    yes (exec (.dramDataArrival 0 home 3) s) fun t => (t.stop 0 home).replies.map (fun p => p.2.payload) ==
      [.reply [tag] (List.replicate 32 7) false 0] := by decide

set_option maxRecDepth 100000 in
theorem witness_MemoryEvents_uncorrectable :
    decodeUnit leaf 0 req.pa (8 :: 9 :: 7 :: List.replicate 29 0) (List.replicate 4 0) = .uncorrectable := by decide

set_option maxRecDepth 20000 in
/-- STOP_ATOMIC adds 3 to the word at the end of its unit (R194, R362). -/
theorem test_stop_atomic : let s := atStop { inq := [{ atomAdd with va := 0x10003C }] }
    yes (exec (.stopAtomic 0 home) s) fun t => ((t.die 0).stored 0 0x100020).1.getD 28 0 == 3 &&
      ((t.die 0).stored 0 0x100020).1.getD 27 0 == 0 && (t.stop 0 home).replies.length == 1 := by decide

/-- MemoryEvents: a request that its slice entry places in the die or at a host port, one of an unbound ASID, one that
waits for a walk, and the walk. -/
def raw : Req := { req with pa := 0, unit := 0, leaf := {} }
def sliced : Die := { mapped with xlat := [raw], tlb := [⟨0, 0, 2 ^ 30, leaf⟩] }
theorem witness_MemoryEvents_translation :
    (sliced.xlat.find? fun q => decide (q.id = 9)) = some raw ∧
      sliced.rootOf 0 0 ≠ none ∧ sliced.rootOf 1 0 = none ∧ sliced.hit 0 raw.va = some ⟨0, 0, 2 ^ 30, leaf⟩ ∧
      mapped.hit 0 raw.va = none ∧ mapped.walking 0 raw.va = false ∧ mapped.walks.length < 64 ∧
      sliced.place 0 raw.va 0 leaf (2 ^ 30) = .ok { leaf, size := 2 ^ 30, pa := 0x100020, unit := 32 } ∧
      sliced.place 0 (2 ^ 55 + 64) 0 leaf (2 ^ 30) = .ok { leaf, size := 2 ^ 30, pa := 64, unit := 64 } ∧
      raw.len ≤ 32 - raw.va % 32 ∧ raw.va / 2 ^ 53 % 8 ≠ 4 ∧
      (2 ^ 55 + 64) / 2 ^ 53 % 8 = 4 ∧
      (let q := { raw with pa := 0x100020, unit := 32, leaf }
       let c : Replica := { target := 0, pa := 0x100020, unit := 32, vf := 0, asid := 0, va := 0x100020, frame := 2 ^ 52, leaf }
       let e : GSeal := { blockUid := 5, vf := 0, asid := 0, addr := 0x100000, len := 64, scope := 5 }
       sliced.replicaFor q = none ∧ ({ sliced with replicas := [c], gseals := [e] } : Die).replicaFor q = some c ∧
       sliced.canInject q.entry raw.router raw.port 0 [] (stopPacket 0 q) = true ∧
       sliced.canInject q.entry raw.router raw.port 0 []
         (stopPacket 0 { q with pa := c.frame, replica := some c.target }) = true) := by decide

theorem witness_MemoryEvents_walk : let w : Walk := { id := 9, asid := 0, vf := 0, va := 0x100020, kind := 0, began := 0 }
    (({ mapped with walks := [w] } : Die).walks.find? fun w => decide (w.id = 9)) = some w ∧ w.barred = false ∧
      mapped.translate 0 0 0x100020 0 = .ok { leaf, size := 2 ^ 30, pa := 0x100020, unit := 32 } ∧
      mapped.translate 0 0 0x40000000 0 = .error bsERROR := by decide

/-- MemoryEvents: a global SEAL and UNSEAL, and a unit that another die may keep a replica of. -/
theorem witness_MemoryEvents_seals :
    let e : GSeal := { blockUid := 5, vf := 0, asid := 0, addr := 0x100000, len := 64, scope := 5 }
    let sealable : Die :=
      { mapped with plain := table [(0, 0x8000000000020000), (0x20000, leafWord + 0x0200000000000000)], gseals := [e] }
    ((({ mapped with sealReqs := [join] } : Die).sealReqs.find? fun a => decide (a.id = 4)) = some join) ∧
      mapped.arrivedWrites 0 join.addr join.len = false ∧ (List.replicate 64 e).length = 64 ∧
      (sealable.sealedUnit 0x100020).map (fun x => (x.1, x.2.1, x.2.2.leaf)) = some (e, 0x100020, { leaf with sealok := true }) ∧
      ({ fold with copy := some 1 } : Fold).copy = some 1 ∧ (1 : Nat) ≠ 0 ∧ e.vf = req.vf ∧
      (∀ r ∈ sealable.replicas, ¬(r.pa = 0x100020 ∧ r.target = 1)) ∧
      (∀ f ∈ ((onDie sealable).stop 0 home).folds, ¬(f.key.1 = 0x100020 ∧ f.copy = some 1)) ∧
      ((onDie sealable).stop 0 home).recorded 0x100020 32 = false ∧
      (∀ r ∈ ((onDie sealable).stop 0 home).inq, r.pa = 0x100020 → r.kind = 0) ∧
      (∀ r ∈ sealable.replicas, ∀ i ∈ r.reads, (onDie sealable).awaited i = false) := by decide

/-- MemoryEvents: a split that waits for the answer to a SEAL, and one that no longer does. -/
theorem witness_MemoryEvents_asking : Asking (mk joiner bl) join ∧ ¬ Asking (mk gr bl) join := by
  refine ⟨⟨joiner, rfl, rfl, waiting (.asked 4), List.mem_singleton.2 rfl, rfl⟩, ?_⟩
  rintro ⟨g, hg, -, p, hp, hw⟩
  have h0 : (mk gr bl).group? join.core join.slot = some gr := rfl
  obtain rfl : gr = g := Option.some.inj (h0.symm.trans hg)
  simp only [gr, List.mem_singleton] at hp; subst hp; exact absurd hw (by decide)

/-- MemoryEvents: requests at a host port, and fetches of a core. -/
def hostRead : HostReq := { req := { req with va := 2 ^ 55 + 0x80, unit := 64 }, port := 0, addr := 0x80 }
theorem witness_MemoryEvents_host :
    let s := { mk gr bl with hostReqs := [hostRead] }
    let x := s.core 0
    let f : Fetch := { id := 6, vf := 0, asid := 0, block := 4 }
    (s.hostReqs.find? fun g => decide (g.req.id = 9)) = some hostRead ∧
      (∀ g ∈ s.hostReqs.takeWhile (fun g => decide (g.req.id ≠ 9)), g.addr / 64 ≠ hostRead.addr / 64) ∧
      hostRead.req.kind = 0 ∧ hostRead.req.leaf.quar = false ∧ ({ leaf with quar := true } : Leaf).quar = true ∧ hostRead.addr % 64 + hostRead.req.len ≤ 64 ∧ tget false s.hostPoison 2 = false ∧
      (x.blocks.find? fun (kb : Nat × Block) => decide (kb.2.asid = 0)) = some (0, bl) ∧ x.codeFor 0 256 = none ∧
      (∀ f ∈ x.fetches, f.asid = 0 → f.block = 4 → f.dropped = true) ∧
      ({ x with fetches := [f] }.fetches.find? fun g => decide (g.id = 6)) = some f ∧ f.dropped = false ∧
      f.got = none ∧ s.blockAt 0 0 256 = none ∧ (4 : Nat) < 2 ^ 50 ∧
      (onDie mapped).blockAt 0 0 0x100020 ≠ none ∧ (∀ b, (onDie mapped).blockAt 0 0 0x100020 = some b → (onDie mapped).halfWritten b = false) ∧ s.unperformed 0 0 256 = false ∧ s.unperformed 0 0 288 = false := by decide

/-! ### The mesh and the fabric -/

/-- A packet of one flit at the front of an input buffer of router 5, for its port 4. -/
def pkt (cls part : Nat) : Packet := { dests := [(0, 5, 4)], route := 0, kind := 1, cls, part, payload := .req req }
def slot (cls part : Nat) : Slot := { pkt := pkt cls part, todo := [4] }
def front (cls : Nat) : Nat := 64 * 5 + 8 * 0 + (pkt cls 0).vc
def head (cls : Nat) (sl : Slot) : Head := { inp := 0, vc := (pkt cls 0).vc, slot := sl }
def meshed (bufs : Tbl (List Slot)) (p : Port) : State := onDie { bufs, ports := [(44, p)] }
def both : Tbl (List Slot) := [(front 0, [slot 0 3]), (front 1, [slot 1 7])]

/-- MeshAndFabric: two classes wait; a reservation for partition 7; a promoted head; a body flit. -/
theorem witness_MayGrant : MayGrant (meshed both {}) 0 5 4 :=
  ⟨by decide, by decide, by decide, by decide, by decide, by decide⟩
theorem witness_MeshAndFabric_grant :
    let s := meshed both {}
    let x := s.die 0
    let promoted : Slot := { slot 1 7 with promoted := [4], ages := [(4, 128)] }
    let u := meshed [(front 1, [promoted])] {}
    (x.port 5 4).cur < 2 ∧ (s.waiting 0 5 4).map (·.slot) = [slot 0 3, slot 1 7] ∧ (x.port 5 4).deferred = [] ∧
      tget 0 (x.port 5 4).slots x.slotIndex / 2 ^ 15 % 2 = 0 ∧ x.isPurging 5 = false ∧
      (∀ h ∈ s.waiting 0 5 4, 4 ∉ h.slot.promoted) ∧
      (let e := tget 0 (((meshed both { slots := [(0, 0x8000 + 7)] }).die 0).port 5 4).slots 0
       e / 2 ^ 15 % 2 = 1 ∧ (head 1 (slot 1 7)).slot.pkt.part = e % 128 ∧ e / 2 ^ 13 % 4 = 0) ∧
      (u.waiting 0 5 4).map (·.slot) = [promoted] ∧ 4 ∈ promoted.promoted ∧
      (((meshed both { body := some 1 }).die 0).port 5 4).body = some 1 ∧ 1 < 40 ∧
      max 1 (x.mesharb.toNat / 2 ^ 16 % 256) ≤ tget 0 ({ slot 1 7 with ages := [(4, 128)] } : Slot).ages 4 ∧
      ((meshed [] {}).waiting 0 5 4).length = 0 := by decide

/-- OUTPUT_PORT_GRANT passes the latency class first from reset, and counts it (R318, R328). -/
theorem test_grant : yes (exec (.outputPortGrant 0 5 4) (meshed both {})) fun t =>
    ((t.die 0).port 5 4).txlat == 1 && ((t.die 0).port 5 4).txbulk == 0 && (t.die 0).buf 5 0 (pkt 0 0).vc == [] := by decide

/-- MeshAndFabric: a packet that leaves router 4 for its stop and a message that leaves router 0 for its cluster. -/
theorem witness_MeshAndFabric_land :
    let m : Packet := { pkt 0 0 with payload := .msg msg }
    ((meshed [] {}).die 0).leaving = [] ∧
      (let x : Die := { leaving := [(8 * 4 + 4, pkt 0 0)] }
       x.leaving = [(8 * 4 + 4, pkt 0 0)] ∧ leadsTo 4 4 = .stop 1) ∧
      leadsTo 0 0 = .cluster ∧ m.payload = .msg msg ∧ msg.kind ≠ 2 ∧ State.reset.d3hot = false ∧
      (State.reset.core 1).gated = false ∧ record9.victim = 0 ∧ leadsTo 12 pW ≠ .cluster := by decide

/-- MeshAndFabric: register writes at slot index 0, and what SLOTCMD takes and refuses. -/
theorem witness_MeshAndFabric_tables :
    let x : Die := { mesharbNew := some 0x00400014, slotcmd := 0x80000054 }
    x.slotIndex = 0 ∧ x.mesharbNew = some 0x00400014 ∧ x.slotcmd.getLsbD 31 = true ∧ x.slotcmd.toNat % 8 = 4 ∧
      (0x8000 + 127) / 2 ^ 15 % 2 = 1 ∧ (0x8000 + 127) / 2 ^ 7 % 64 = 0 ∧ ¬(64 ≤ 127 ∧ 127 ≤ 126) ∧
      (64 ≤ (0x8000 + 64) % 128 ∧ (0x8000 + 64) % 128 ≤ 126) ∧ 0x80000054 / 2 ^ 31 % 2 = 1 := by decide

/-- A launch in a group of four ranks on a ring: rank 1's links 0 and 1 lead to ranks 0 and 2. -/
def ring : PGroup := { ndim := 1, size := 4, rank := 1, key := 77, ext := [4, 1, 1], links := [(0, 0), (1, 2)] }
def contribution (dst : Nat) : FabPkt :=
  { kind := 0, key := 77, src := 1, dst, core := 0, seq := 7, op := 8, words := [1, 4, 0, 6], data := [1, 0, 0, 0], size := 4 }
def entry : Combine :=
  { num := 2, key := 77, tag := 6, op := 8, w1 := 1, w10 := 4, w11 := 0, root := 1, launch := 0, firstAt := 0
    parts := [{ contribution 1 with src := 0, link := 0 }], acc := [5] }
def ringed : State :=
  { mk gr bl with launches := [{ ln with pg := ring, wdog := 100 }], links := [(0, { state := 2 }), (1, { state := 2 })] }

/-- EngineCommands: a REDUCE's contribution of one word, at its root and from another rank, and a unit of an RCOPY. -/
theorem witness_EngineCommands_fabric :
    let all (root : Nat) : Cmd := { started { cmd with w := words [(0, 7), (1, 1), (12, BitVec.ofNat 32 root)] } with rest := [] }
    let s (m : Cmd) : State := onDie mapped { ringed with cores := [(0, cmdCore m)] }
    let copy : Cmd :=
      { started { cmd with w := words [(0, 12), (1, 32), (3, 0x80000000), (4, 0x100000), (12, 2)] } with
        rest := [], outbox := [(0, List.replicate 32 5, false, false)] }
    ((all 1).op = 7 ∧ (all 1).gathers = true ∧ (all 1).phase = 0 ∧ (all 1).pend = [] ∧ ((s (all 1)).cmdPg (all 1)).rank = 1 ∧
        (s (all 1)).entryFor (77, 0) = true) ∧
      ((all 2).sent < 1 ∧ ((s (all 2)).sendFab 0 (all 2) (contribution 2)).isSome = true) ∧
      copy.op = 12 ∧ (s copy).isRemote copy = true ∧ copy.sub = 0 ∧ copy.dstAt (s copy) 0 0 = some (.glob 0x100000) ∧
      32 = min (copy.run 0) (256 - 0x100000 % 256) ∧ (∀ y ∈ copy.waiting (s copy) 0, y.1 = 0 ∨ 0x100000 + 32 ≤ y.2.1) ∧
      ((s copy).sendFab 0 copy { contribution 2 with kind := 3, va := 0x100000, data := List.replicate 32 5 }).isSome = true := by
  decide

/-- MeshAndFabric: packets for this rank, for another, without a launch and with its link down; packets that the mesh
takes toward a core and toward the hub of another die. -/
theorem witness_MeshAndFabric_fabric :
    let done : FabPkt := { contribution 1 with kind := 2 }
    let far : FabPkt := { contribution 2 with hub := 1 }
    HubFree ringed done 12 (fabPacket 0 done) ∧ HubFree ringed far 12 (hubPacket 0 0 0 far) ∧
      linkDie 1 ≠ far.hub ∧ linkDie 1 = (contribution 2).hub ∧ (ringed.link 1).outbound = [] ∧ ringed.contribs = [] ∧
      ringed.jobOf 77 = some { ln with pg := ring, wdog := 100 } ∧ ringed.jobOf 78 = none ∧
      (contribution 1).dst = ring.rank ∧ (contribution 2).dst ≠ ring.rank ∧ ring.linkTo 2 = some 1 ∧
      (ringed.link 1).state = 2 ∧ (ringed.link 3).state = 0 ∧
      ((ringed.link 1).inbound = [] ∧ (ringed.link 1).fails < 8 ∧ (ringed.link 1).rxCount < 2 ^ 48) := by
  unfold HubFree; decide

/-- MeshAndFabric: a frame that has come whole, a link that fails, one that is up, and one in training. -/
def frame : Frame :=
  let x := Config.gcm (Config.linkKey 1 0 false) (Config.linkSalt 1 0 false ++ BitVec.ofNat 64 0) [contribution 1]
  { count := 0, pkts := [contribution 1], text := x.1, tag := x.2 }
theorem witness_MeshAndFabric_link :
    let l : Link := { state := 2, inbound := [frame] }
    l.inbound = frame :: [] ∧ l.state = 2 ∧ l.fails < 8 ∧ l.rxCount < 2 ^ 48 ∧ frame.count = l.rxCount ∧
      (frame.text, frame.tag) = Config.gcm (Config.linkKey 1 l.keyGen false)
        (Config.linkSalt 1 l.keyGen false ++ BitVec.ofNat 64 l.rxCount) frame.pkts ∧
      8 ≤ ({ l with txFails := 8 } : Link).txFails ∧ ({ l with state := 1 } : Link).state = 1 ∧ { frame with count := 1 }.count ≠ l.rxCount :=
  ⟨rfl, rfl, by decide, by decide, rfl, rfl, by decide, rfl, by decide⟩

/-- MeshAndFabric: a job of this device by its table, a combiner with room, and a vector of which a packet is missing. -/
theorem witness_MeshAndFabric_jobs :
    let c := contribution 1
    let half : FabPkt := { c with size := 8 }
    ringed.tableOf 77 = some (0, ring) ∧ ringed.tableOf 78 = none ∧
      ({ ringed with launches := [], jobs := [(0, ring)] } : State).tableOf 77 = some (0, ring) ∧
      ({ ringed with launches := [], jobs := [(0, ring)] } : State).jobOf 77 = none ∧
      ringed.entryFor (77, c.words.getD 3 0) = true ∧ c.data.length = c.size ∧
      ({ ringed with contribs := [half] } : State).wholeContribution 0 half = none ∧
      (∀ q ∈ [c].take 0, ¬(q.hub = c.hub ∧ q.mesh = c.mesh ∧ q.link = c.link ∧ q.linkVc = c.linkVc)) := by decide

/-- MeshAndFabric: an acknowledgement and a result that reach a command. -/
theorem witness_MeshAndFabric_results :
    let m := { started cmd with phase := 1 }
    let s (kind : Nat) : State := { onCore (cmdCore m) with results := [{ contribution 1 with kind }] }
    (∀ k ∈ [1, 2, 4], (s k).results[0]? = some { contribution 1 with kind := k }) ∧
      cmdAt (s 4) 0 (contribution 1).seq = some m ∧ m.phase = 1 ∧ (s 1).expired m = false := by decide

/-- MeshAndFabric: a contribution that opens an entry, one that joins it, one that completes it, one rejected; timeouts;
a result; an RCOPY unit. -/
theorem witness_MeshAndFabric_combine :
    let c := contribution 1
    let s := { ringed with contribs := [c], combiner := [entry], now := 100 }
    let m := { started cmd with phase := 1, w := words [(0, 8), (1, 1)] }
    let p : FabPkt := { kind := 3, key := 77, src := 2, dst := 1, core := 0, seq := 7, va := 0x100020, data := List.replicate 32 5 }
    s.contribs[0]? = some c ∧ 1 < (c.words.getD 1 0).toNat ∧ c.op = 8 ∧
      (s.combiner.find? fun e => decide (e.key = c.key ∧ e.tag = 6)) = some entry ∧ entry.rejects c = false ∧
      entry.rejects { c with op := 7 } = true ∧ entry.parts ≠ [] ∧ entry.parts.length + 1 ≠ entry.w10.toNat ∧
      ({ entry with w10 := 2 } : Combine).parts.length + 1 = ({ entry with w10 := 2 } : Combine).w10.toNat ∧
      (s.combiner.find? fun x => decide (x.num = entry.num)) = some entry ∧
      entry.firstAt + s.watchdog entry.launch ≤ s.now ∧ 99 < entry.firstAt + s.watchdog entry.launch ∧ m.phase = 1 ∧
      { onCore (cmdCore m) with now := 100 }.expired m = false ∧
      { onCore (cmdCore m) with now := 100, launches := ringed.launches }.expired m = true ∧
      (let u := onDie mapped ringed
       p.va / 2 ^ 53 % 8 ≤ 3 ∧ p.va % 32 = 0 ∧ p.data.length = 32 ∧ u.stopBusy 0 0x100020 = false ∧
       (u.die 0).quarantined leaf 0x100020 = false) := by decide

/-! ### Scheduling and launches -/

/-- SchedulingAndLaunches: a starved split, one held back by a reservation, and the oldest resident and dormant splits
that a paddock swap exchanges. -/
theorem witness_Starved : Starved gr { sp with idle := 256 } := ⟨rfl, rfl, rfl, rfl, by decide, rfl, by decide⟩
theorem witness_SchedulingAndLaunches_splits :
    let p : Split := { sp with idle := 256 }
    let d : Split := { sp with id := 3, place := 64, exec := 0x8, domain := 0x8 }
    let g : Group := { gr with splits := [sp, d], padDue := true }
    (({ gr with splits := [p] } : Group).splits.find? (({ gr with splits := [p] } : Group).issues 0) = some p) ∧
      (∀ r ∈ [p], r.id ≠ p.id → r.place < 64 → ∃ x ∈ gr.resv, r.domain.getLsbD x.1 = true) ∧
      (mk g { bl with padN := 1 }).swapPair 0 0 g = some (sp, d) ∧
      (mk { g with padDue := false } bl).swapPair 0 0 { g with padDue := false } = none ∧
      sp.domain.getLsbD 0 = true := by decide

/-- SchedulingAndLaunches: a barrier at which all have arrived. -/
theorem witness_SchedulingAndLaunches_barrier :
    let g : Group := { gr with splits := [{ sp with wait := 2 }] }
    let x := (mk g bl).core 0
    (∃ kg ∈ x.groups, kg.2.block = 0 ∧ kg.2.ended = false) ∧ g.arrived = true ∧ g.q.stores = [] ∧
      (∀ m ∈ x.cmds, m.block = 0 → m.writesOwn x 0 0 = false) ∧ (∀ kb ∈ x.blocks, kb.1 = 0 → kb.2.rolling = none) := by decide

/-- A launch record of one gang for ASID 0 and the code object at 0x10000, in a queue of one entry. -/
def record : List Byte := (words [(0, 1), (1, 0), (2, 0x10000), (7, 1), (11, 9)]).flatMap (fun w => natLe w.toNat 4) ++ List.replicate 192 0
def queued (bytes : List Byte) : State :=
  { State.reset with objects := [obj], dies := [(0, mapped)], hostMem := tblWrite [] 0 bytes,
                     fns := [(0, { queues := [(0, { qwp := 1, enable := true })] })] }

set_option maxRecDepth 20000 in
theorem witness_SchedulingAndLaunches_take : let s := queued record
    ((s.fn 0).queue 0).enable = true ∧ ((s.fn 0).queue 0).qwp ≠ ((s.fn 0).queue 0).qrp ∧ s.ckptHolds 0 = false ∧
      s.trust.halted = false ∧
      s.badWords 0 (nextRecord s 0 0) (some obj) = [] ∧ recWord (nextRecord s 0 0) 8 = 0 ∧
      (recWord (nextRecord s 0 0) 0).getLsbD 11 = false ∧ s.badWords 0 (nextRecord s 0 0) none = [2, 4] ∧
      2 ^ 0 < (BitVec.ofNat 32 2 - ((s.fn 0).queue 0).qrp).toNat := by decide

set_option maxRecDepth 20000 in
/-- SchedulingAndLaunches: a gang with a place; a launch whose gangs are over. -/
theorem witness_SchedulingAndLaunches_place :
    let l : Launch := { ln with nextGang := 0 }
    let s := { State.reset with launches := [l], objects := [obj] }
    let e := { State.reset with launches := [ln] }
    s.launch? 0 = some l ∧ s.wantsPlace l = true ∧ s.gangSpot l = some (0, [0]) ∧
      (s.placeBlocks l 1 [0] 0).isSome = true ∧ e.ready ln = true ∧ ln.endGang ≤ ln.nextGang ∧
      e.launchBusy 0 = false := by decide

/-! ### What system software writes; saves, resets and the debugger -/

/-- HostRegisters: a queue that is enabled and one that is not; the claimed group of the debugger; an idle device. -/
def held : Group := { gr with claimed := true, splits := [{ sp with wait := 5 }] }
def debugged : State := onCore { co held bl with dbgHeld := some 0 }
theorem witness_HostRegisters :
    ((queued []).fn 0).queue 0 ≠ {} ∧ (((queued []).fn 0).queue 0).enable = true ∧
      ((State.reset.fn 63).queue 15).enable = false ∧ State.reset.trust.halted = false ∧ (debugged.core 0).dbgHeld = some 0 ∧
      debugged.group? 0 0 = some held ∧ held.claimed = true ∧ State.reset.idle = true ∧ debugged.idle = false ∧
      State.reset.trust.booted = false ∧ (∀ x ∈ State.reset.trust.stages, Config.firmwareGood (Config.sha256 x.1) x.2 = true) ∧
      (State.reset.die 3).planAt + 24 * 3600 * 1400000000 ≤ 24 * 3600 * 1400000000 ∧
      ({ State.reset with fixlat := true } : State).fixlat = true := by
  refine ⟨by decide, by decide, by decide, rfl, by decide, by decide, rfl, by decide, by decide, rfl, ?_, by decide, rfl⟩
  intro x hx; cases hx

/-- HostRegisters: a queue's write pointer and a fabric die's AGE register, read by system software. -/
theorem witness_HostRegisters_reads :
    let s (f off : Nat) : State := { queued [] with script := [.env (.regRead f off 4)] }
    (s 0 0x1010).script = .env (.regRead 0 0x1010 4) :: [] ∧ (0x1010 : Nat) % 0x40 = 0x10 ∧
      (s 64 0x2000008).script = .env (.regRead 64 0x2000008 4) :: [] ∧ (0x2000008 : Nat) % 0x1000000 = 8 := by decide

/-- Software reads QWP of the enabled queue, and a reserved place as 0 (R15, R372). -/
theorem test_reg_read :
    let s (off : Nat) : State := { queued [] with script := [.env (.regRead 0 off 4)] }
    yes (step (s 0x1010)) (·.readReg == 1) && yes (step (s 0x100C)) (·.readReg == 0) := by decide

/-- SavesResetsAndDebugger: a block to save at an area, no block, a bad area, one too short; a checkpoint to begin, one
in progress, one ended; a VF to reset and one resetting. -/
theorem witness_SavesResetsAndDebugger_saves :
    let s : State := { mk gr bl with pf :=
      { ctxaddr := 0x10000, ctxlen := 1, ckptdb := 0x8000000000000, hostSeg := 0x8000000100000000 } }
    let k : Ckpt := { restore := false, whole := true, vf := 0, startedAt := 0 }
    s.pf.ctxcmd.getLsbD 31 = false ∧ 0x84000000 / 2 ^ 31 % 2 = 1 ∧ 0x84000000 / 2 ^ 26 % 4 = 1 ∧
      s.block? s.ctxCore s.ctxSlot = some bl ∧ bl.ended = false ∧ s.ckptHolds bl.vf = false ∧ bl.task = none ∧
      badArea s.pf.ctxaddr = false ∧ badArea 0x10001 = true ∧ State.reset.block? 0 0 = none ∧ State.reset.areaLen < 64 ∧
      64 ≤ s.areaLen ∧ ({ mk gr bl with ckpt := some k } : State).ckptHolds 0 = true ∧
      s.pf.ckpt.getLsbD 63 = false ∧ s.pf.ckptDestOk = true ∧
      (∀ kc ∈ s.cores, ∀ kb ∈ kc.2.blocks, kb.2.task = none ∨ kb.2.committed = true) ∧
      ({ mk gr bl with ckpt := some k, now := 280000001 } : State).scopeQuiet k = false ∧
      ({ State.reset with ckpt := some k } : State).scopeQuiet k = true ∧ (s.fn 0).resetting = false := by decide

/-- SavesResetsAndDebugger: a restore of an area whose length field is 0, and a checkpoint of VF 0 on the tier. -/
theorem witness_SavesResetsAndDebugger_restores :
    let s : State := { State.reset with pf := { ctxaddr := 0x10000, ctxlen := 1, ckptdb := 0x8000000000000 } }
    let k : Ckpt := { restore := true, whole := false, vf := 0, startedAt := 0 }
    let u : Tier := { da := 0, db := 0x8000000000000, whole := false, vf := 0, hbm := [], side := [], plain := [], wgran := [], poison := [], images := [] }
    imgNat (s.readArea s.pf.ctxaddr 64) 48 8 = 0 ∧ 64 ≤ s.areaLen ∧ badArea s.pf.ctxaddr = false ∧
      (readBlock {} []).vf = 0 ∧ s.ckptHolds 0 = false ∧
      (let v : State := { s with ckpt := some k, tier := [u] }
       v.ckpt = some k ∧ v.scopeQuiet k = true ∧ (∀ f ∈ v.fly, k.scope f.vf = false) ∧ v.tierFor k = some u ∧
       ∀ d < 4, twf 0 (tget [] u.hbm d) = true) := by decide

/-- SavesResetsAndDebugger: a claim, a release and a step of a held split; without a group; a split of no live id. -/
theorem witness_SavesResetsAndDebugger_debug :
    let x := debugged.core 0
    let p : Split := { sp with wait := 5 }
    (mk gr bl).group? 0 (0x40000000 % 16) = some gr ∧ ((mk gr bl).core 0).dbgHeld = none ∧ x.dbgHeld = some 0 ∧
      held.ended = false ∧ x.dbgcmd.getLsbD 31 = false ∧
      (held.splits.filter fun p => p.handler == held.trap.active).find? (fun q => decide (q.id = 0)) = some p ∧
      p.wait = 5 ∧ p.dwait = 0 ∧ (∀ q ∈ held.splits, q.id ≠ 96) ∧ x.freePlace 0 62 = some 1 ∧
      0x90000000 / 2 ^ 31 % 2 = 1 ∧ 0x90000000 / 2 ^ 28 % 8 = 1 ∧ debugged.group? 0 1 = none := by decide

/-! ### Steps and encodings -/

/-- StepIssuesDecoded: the word of a NOP placed where the machine fetches. -/
def placed : State := State.reset.withFetchWord 64 0x0400000000000000
theorem witness_StepIssuesDecoded : ∃ k g, IssuesNext placed 0 k g (.nop zE) :=
  ⟨(placed.taken.pick 0 [] [] false).getD { block := 0, slot := 0, first := sp }, group0 placed,
    ⟨[], [], false, by decide, by decide⟩, by decide, by decide, by decide, .inl (by decide)⟩

/-- StepIssuesDecoded: a word that is no instruction, whose place an instruction of the model takes. -/
def unassigned : State := State.reset.withFetchWord 64 0
theorem witness_StepIssuesDecoded_illegal : ∃ k g, IssuesNext unassigned 0 k g (.illegalWord 1) :=
  ⟨(unassigned.taken.pick 0 [] [] false).getD { block := 0, slot := 0, first := sp }, group0 unassigned,
    ⟨[], [], false, by decide, by decide⟩, by decide, by decide, by decide, .inr ⟨1, .inl (by decide), rfl⟩⟩

/-- StepIssuesDecoded: two splits whose words, a SADD and a VCLT, may be paired. -/
def pairA : FmtS := { zS with sd := 3, sa := 4, imm := 1, imm29 := 536870905 }
def pairB : FmtV := { zV with km := 4, vd := 1, va := 7, vb := 8 }
def paired : State :=
  let s := State.reset.withFetchWord 128 (0x2424021C40000000 * 2 ^ 64 + 0x10000C403FFFFFF9)
  { s.modGroup 0 0 fun g => { g with splits := g.splits.flatMap fun p =>
      [{ p with exec := 1, domain := 1 }, { p with id := 1, place := 1, exec := 2, domain := 2, pc := p.pc + 8 }] } with
    script := [.issue 0 [] [] true] }
theorem witness_StepIssuesDecoded_pair : ∃ k g a b, IssuesPair paired 0 k g a b (.sadd pairA) (.vclt pairB) :=
  let k := (paired.taken.pick 0 [] [] true).getD { block := 0, slot := 0, first := sp }
  ⟨k, group0 paired, k.first, k.second.getD sp,
    ⟨[], [], true, by decide, by decide⟩, .inl (by decide), by decide, by decide, by decide⟩

/-- StepIssuesDecoded: a decision that finds nothing to issue, and one for a group that the debugger holds. -/
theorem witness_StepIssuesDecoded_none : ({ placed with d3hot := true } : State).taken.pick 0 [] [] false = none ∧
    State.script { placed with d3hot := true } = [.issue 0 [] [] false] := by decide

/-- DecodeEncode: a well-formed instruction with a word, and a word that decodes. -/
theorem witness_DecodeEncode :
    wellFormed (.vadd { zV with lx := 1, km := 1, vd := 2, va := 1, bsc := 1, lit := 0x12345678 }) 8 = true ∧
      encode (.vadd { zV with lx := 1, km := 1, vd := 2, va := 1, bsc := 1, lit := 0x12345678 }) =
        [0x2009040400000800, 0x12345678] ∧
      (decode 0x2009040400000800 0x12345678 8).toOption.isSome = true := by decide

/-- StepKeepsMemoryCanonical: a state whose memory is canonical, with a next step. -/
theorem witness_StepKeepsMemoryCanonical : placed.memWf = true ∧ yes (step placed) (fun t => t.memWf) = true := by decide

end Sys2Proof.Tests
end

section
/-!
SUPPORT. Lists and masks of lanes: the numbers that the model counts through as ranges, the lanes of a mask, and
the mask of a list of lanes (R79).
-/
namespace Sys2Proof.Machine

open Sys2Proof.Claims

theorem rangeFrom_eq_range' (lo n : Nat) : rangeFrom lo n = List.range' lo n := by
  induction n generalizing lo with
  | zero => rfl
  | succ n ih => rw [rangeFrom, ih, List.range'_succ]

theorem rangeFrom_zero (n : Nat) : rangeFrom 0 n = List.range n := by
  rw [rangeFrom_eq_range', List.range_eq_range']

/-- The participants that a cross-lane instruction counts through are those of the statements. -/
theorem lanesOf_participants (f : FmtV) (cx : Ctx) : lanesOf (cx.participants f.km) = partsOf f cx := by
  rw [lanesOf, rangeFrom_zero, partsOf]

theorem mem_partsOf {f : FmtV} {cx : Ctx} {l : Nat} :
    l ∈ partsOf f cx ↔ l < 96 ∧ (cx.participants f.km).getLsbD l = true := by
  rw [← lanesOf_participants, mem_lanesOf]

theorem getLsbD_one_shiftLeft (n i : Nat) : (1#96 <<< n).getLsbD i = (decide (i < 96) && decide (i = n)) := by
  rw [BitVec.getLsbD_shiftLeft, BitVec.getLsbD_one, Bool.eq_iff_iff]
  simp only [Bool.and_eq_true, Bool.not_eq_true', decide_eq_true_eq, decide_eq_false_iff_not]
  omega

theorem getLsbD_foldl_lanes (ls : List Nat) (m : LaneMask) (i : Nat) :
    (ls.foldl (fun m n => m ||| (1#96 <<< n)) m).getLsbD i =
      (m.getLsbD i || (decide (i < 96) && decide (i ∈ ls))) := by
  induction ls generalizing m with
  | nil => simp
  | cons l ls ih =>
    rw [List.foldl_cons, ih, BitVec.getLsbD_or, getLsbD_one_shiftLeft]
    simp only [List.mem_cons, Bool.decide_or, Bool.and_or_distrib_left, Bool.or_assoc]

theorem getLsbD_maskOfLanes (ls : List Nat) (i : Nat) :
    (maskOfLanes ls).getLsbD i = (decide (i < 96) && decide (i ∈ ls)) := by
  rw [maskOfLanes, getLsbD_foldl_lanes]
  simp

/-- The mask of the lanes of `m` that satisfy a predicate. -/
theorem getLsbD_maskOfLanes_filter (m : LaneMask) (p : Nat → Bool) (i : Nat) :
    (maskOfLanes ((lanesOf m).filter p)).getLsbD i = (m.getLsbD i && p i) := by
  have inside : m.getLsbD i = true → i < 96 := BitVec.lt_of_getLsbD
  rw [getLsbD_maskOfLanes, Bool.eq_iff_iff]
  simp only [List.mem_filter, mem_lanesOf, Bool.and_eq_true, decide_eq_true_eq]
  tauto

/-- In a strictly increasing list, the index of a member counts the members below it. -/
theorem idxOf_eq_length_filter_lt {l : Nat} : ∀ {ps : List Nat}, ps.Pairwise (· < ·) → l ∈ ps →
    ps.idxOf l = (ps.filter (· < l)).length
  | [], _, hl => by simp at hl
  | p :: ps, hp, hl => by
    obtain ⟨hlt, hps⟩ := List.pairwise_cons.mp hp
    by_cases h : p = l
    · subst h
      have none_less : ps.filter (· < p) = [] :=
        List.filter_eq_nil_iff.mpr fun q hq => by simpa using (hlt q hq).le
      simp [none_less]
    · have hmem : l ∈ ps := (List.mem_cons.mp hl).resolve_left (Ne.symm h)
      rw [List.idxOf_cons_ne _ h, idxOf_eq_length_filter_lt hps hmem,
        List.filter_cons_of_pos (by simpa using hlt l hmem), List.length_cons]

theorem pairwise_partsOf (f : FmtV) (cx : Ctx) : (partsOf f cx).Pairwise (· < ·) :=
  List.pairwise_lt_range.filter _

/-! ### The forms of the lane instructions (R92, R117) -/

/-- A lane instruction has the result that its value gives. -/
theorem laneResult_of_laneOp {i : FmtV → Instr} {value r : FmtV → Ctx → Nat → Word}
    (hi : ∀ f s, exec (i f) s = laneOp f s (r f)) (hr : ∀ f cx l, r f cx l = value f cx l) :
    LaneResult i value := by
  intro s cx f h
  obtain rfl : r = value := funext fun f => funext fun cx => funext (hr f cx)
  rw [hi, laneOp, issue_eq h]
  exact writesLanes_setV h _ _ _ _

/-- A VINT instruction has the result that its element function gives. -/
theorem elementResult_of_vint {i : FmtV → Instr}
    {g g' : (w : Nat) → BitVec w → BitVec w → BitVec w → BitVec w} (hi : ∀ f s, exec (i f) s = vint f s g)
    (hg : ∀ w a b c, 0 < w → g w a b c = g' w a b c) : ElementResult (i, g') :=
  laneResult_of_laneOp hi fun f cx l => by
    simp only [elems, hg 32 _ _ _ (by decide), hg 16 _ _ _ (by decide)]

/-- A cross-lane instruction has the result that its value gives in the participants. -/
theorem crossResult_of_crossOp {i : FmtV → Instr} {value r : FmtV → Ctx → Nat → Word}
    (hi : ∀ f s, exec (i f) s = crossOp f s (r f)) (hr : ∀ f cx l, l ∈ partsOf f cx → r f cx l = value f cx l) :
    CrossResult i value := by
  intro s cx f h
  rw [hi, crossOp, issue_eq h]
  exact (writesLanes_setV h _ _ _ _).congr fun l hl hm => hr f cx l (mem_partsOf.mpr ⟨hl, hm⟩)

end Sys2Proof.Machine
end

section
/-!
SUPPORT. VINT logic, shifts and bit counts on a w-bit element as exact numbers (R100, R101).
-/
namespace Sys2Proof.Machine

variable {w : Nat}

theorem shiftLeft_eq_ofNat (a : BitVec w) (n : Nat) : a <<< n = BitVec.ofNat w (a.toNat * 2 ^ n) :=
  BitVec.eq_of_toNat_eq (by simp [Nat.shiftLeft_eq])

theorem ushiftRight_eq_ofNat (a : BitVec w) (n : Nat) : a >>> n = BitVec.ofNat w (a.toNat / 2 ^ n) :=
  BitVec.eq_of_toNat_eq (by
    simp [Nat.shiftRight_eq_div_pow, Nat.mod_eq_of_lt (lt_of_le_of_lt (Nat.div_le_self _ _) a.isLt)])

theorem sshiftRight_eq_ofInt (a : BitVec w) (n : Nat) : a.sshiftRight n = BitVec.ofInt w (a.toInt / 2 ^ n) := by
  rw [BitVec.sshiftRight, Int.shiftRight_eq_div_pow]; norm_cast

/-- The bits that a rotation moves out at the top come in below: the two parts do not overlap. -/
theorem rotateLeft_eq_ofNat (a : BitVec w) {n : Nat} (hn : n < w) :
    a.rotateLeft n = BitVec.ofNat w (a.toNat * 2 ^ n + a.toNat / 2 ^ (w - n)) := by
  have hw : 2 ^ w = 2 ^ n * 2 ^ (w - n) := by rw [← pow_add]; congr 1; omega
  have low : a.toNat / 2 ^ (w - n) < 2 ^ n := Nat.div_lt_of_lt_mul (by rw [mul_comm, ← hw]; exact a.isLt)
  have high : a.toNat * 2 ^ n % 2 ^ w = 2 ^ n * (a.toNat % 2 ^ (w - n)) := by
    rw [hw, mul_comm, Nat.mul_mod_mul_left]
  have sum : 2 ^ n * (a.toNat % 2 ^ (w - n)) + a.toNat / 2 ^ (w - n) < 2 ^ w := by
    have : a.toNat % 2 ^ (w - n) + 1 ≤ 2 ^ (w - n) := Nat.mod_lt _ (by positivity)
    calc _ < 2 ^ n * (a.toNat % 2 ^ (w - n) + 1) := by rw [mul_add, mul_one]; omega
      _ ≤ 2 ^ w := by rw [hw]; exact Nat.mul_le_mul_left _ this
  apply BitVec.eq_of_toNat_eq
  rw [BitVec.toNat_rotateLeft, BitVec.toNat_ofNat, Nat.mod_eq_of_lt hn, Nat.shiftLeft_eq,
    Nat.shiftRight_eq_div_pow, high, ← Nat.two_pow_add_eq_or_of_lt low, ← Nat.mod_eq_of_lt sum,
    ← high, Nat.mod_add_mod]

/-- A search down from bit n − 1 of a number below 2^n ends at its highest bit; w − n leading zeros came before. -/
theorem leastFrom_getD_eq_sub_size (a : BitVec w) (n : Nat) : ∀ lo, lo + n = w → a.toNat < 2 ^ n →
    (leastFrom (fun i => a.getLsbD (w - 1 - i)) lo n).getD w = w - a.toNat.size := by
  induction n with
  | zero =>
    intro lo _ ha
    have : a.toNat.size = 0 := Nat.size_eq_zero.mpr (by simpa using ha)
    simp [leastFrom, this]
  | succ n ih =>
    intro lo hlo ha
    have top : w - 1 - lo = n := by omega
    rw [leastFrom, top, ← BitVec.testBit_toNat]
    split
    next hbit =>
      have hge : n < a.toNat.size := Nat.lt_size.mpr (Nat.ge_two_pow_of_testBit hbit)
      have hle : a.toNat.size ≤ n + 1 := Nat.size_le.mpr ha
      simp only [Option.getD_some]; omega
    next hbit =>
      exact ih (lo + 1) (by omega) (Nat.lt_pow_two_of_testBit _ fun i hi => by
        rcases Nat.eq_or_lt_of_le hi with rfl | hi
        · simpa using hbit
        · exact Nat.testBit_lt_two_pow (lt_of_lt_of_le ha (Nat.pow_le_pow_right (by decide) hi)))

theorem leadingZeros_eq_sub_size (a : BitVec w) :
    (leastFrom (fun i => a.getLsbD (w - 1 - i)) 0 w).getD w = w - a.toNat.size :=
  leastFrom_getD_eq_sub_size a w 0 (Nat.zero_add w) a.isLt

theorem ones_eq_countP (a : BitVec w) :
    ((rangeFrom 0 w).filter fun i => a.getLsbD i).length = (List.range w).countP a.getLsbD := by
  rw [rangeFrom_zero, List.countP_eq_length_filter]

theorem reverse_eq_ofFnLE (a : BitVec w) : a.reverse = BitVec.ofFnLE fun i : Fin w => a.getMsbD i :=
  BitVec.eq_of_getLsbD_eq fun i hi => by
    rw [BitVec.getLsbD_reverse, BitVec.getLsbD_ofFnLE]; simp [hi]

end Sys2Proof.Machine
end

section
/-!
SUPPORT. Bit fields of a word (R102): what VBFX extracts as a number, and what VBFI inserts bit by bit.
-/
namespace Sys2Proof.Machine

/-- A field that is not empty is a negative number when its highest bit is set. -/
theorem signBit_iff_le_two_mul {x n : Nat} (hx : x < 2 ^ n) :
    0 < n ∧ x.testBit (n - 1) = true ↔ 2 ^ n ≤ 2 * x := by
  cases n with
  | zero => simp at hx ⊢; omega
  | succ k =>
    have small : x / 2 ^ k < 2 := Nat.div_lt_of_lt_mul (by rwa [← pow_succ])
    have half : 1 ≤ x / 2 ^ k ↔ 2 ^ k ≤ x := by rw [Nat.le_div_iff_mul_le (by positivity), one_mul]
    rw [Nat.add_sub_cancel, Nat.testBit_eq_decide_div_mod_eq, decide_eq_true_eq, pow_succ]
    generalize x / 2 ^ k = q at *
    omega

/-- Ones above bit n of a number below 2^n subtract 2^n from it. -/
theorem or_not_mask_eq_ofInt {x n : Nat} (hn : n ≤ 32) (hx : x < 2 ^ n) :
    BitVec.ofNat 32 x ||| ~~~BitVec.ofNat 32 (2 ^ n - 1) = BitVec.ofInt 32 ((x : Int) - 2 ^ n) := by
  have hle : 2 ^ n ≤ 2 ^ 32 := Nat.pow_le_pow_right (by decide) hn
  have disjoint : BitVec.ofNat 32 x &&& ~~~BitVec.ofNat 32 (2 ^ n - 1) = 0#32 :=
    BitVec.eq_of_getLsbD_eq fun i hi => by
      rw [BitVec.getLsbD_and, BitVec.getLsbD_not, BitVec.getLsbD_ofNat, BitVec.getLsbD_ofNat,
        Nat.testBit_two_pow_sub_one]
      by_cases h : i < n
      · simp [hi, h]
      · simp [Nat.testBit_lt_two_pow (hx.trans_le (Nat.pow_le_pow_right (by decide) (Nat.not_lt.mp h)))]
  rw [← BitVec.add_eq_or_of_and_eq_zero _ _ disjoint]
  apply BitVec.eq_of_toNat_eq
  have cast : (2 : Int) ^ n = (2 ^ n : Nat) := by norm_cast
  rw [BitVec.toNat_add, BitVec.toNat_not, BitVec.toNat_ofNat, BitVec.toNat_ofNat, BitVec.toNat_ofInt, cast]
  generalize 2 ^ n = p at *
  omega

/-- The field of VBFX, zero-extended or, with its highest bit set and `signed`, a negative number. -/
theorem bitField_eq (a : Word) (pos : Nat) {n : Nat} (hn : n ≤ 32) (signed : Bool) :
    bitField a pos n signed =
      if signed = true ∧ 2 ^ n ≤ 2 * (a.toNat / 2 ^ pos % 2 ^ n)
      then BitVec.ofInt 32 ((a.toNat / 2 ^ pos % 2 ^ n : Nat) - 2 ^ n)
      else BitVec.ofNat 32 (a.toNat / 2 ^ pos % 2 ^ n) := by
  have hle : 2 ^ n ≤ 2 ^ 32 := Nat.pow_le_pow_right (by decide) hn
  have hx : a.toNat / 2 ^ pos % 2 ^ n < 2 ^ n := Nat.mod_lt _ (by positivity)
  have field : (a >>> pos) &&& BitVec.ofNat 32 (2 ^ n - 1) = BitVec.ofNat 32 (a.toNat / 2 ^ pos % 2 ^ n) := by
    apply BitVec.eq_of_toNat_eq
    rw [BitVec.toNat_and, BitVec.toNat_ushiftRight, Nat.shiftRight_eq_div_pow, BitVec.toNat_ofNat,
      BitVec.toNat_ofNat, Nat.mod_eq_of_lt (by omega : 2 ^ n - 1 < 2 ^ 32), Nat.and_two_pow_sub_one_eq_mod,
      Nat.mod_eq_of_lt (lt_of_lt_of_le hx hle)]
  have sign : (signed && decide (0 < n) && (BitVec.ofNat 32 (a.toNat / 2 ^ pos % 2 ^ n)).getLsbD (n - 1)) = true ↔
      signed = true ∧ 2 ^ n ≤ 2 * (a.toNat / 2 ^ pos % 2 ^ n) := by
    rw [← signBit_iff_le_two_mul hx, BitVec.getLsbD_ofNat]
    simp only [Bool.and_eq_true, decide_eq_true_eq]
    constructor
    · tauto
    · rintro ⟨h, h0, ht⟩; exact ⟨⟨h, h0⟩, by omega, ht⟩
  simp only [bitField, field, if_congr sign (or_not_mask_eq_ofInt hn hx) rfl]

theorem getLsbD_fieldMask (pos n i : Nat) (hi : i < 32) :
    (BitVec.ofNat 32 ((2 ^ n - 1) * 2 ^ pos)).getLsbD i = (decide (pos ≤ i) && decide (i < pos + n)) := by
  rw [BitVec.getLsbD_ofNat, Nat.testBit_mul_two_pow, Nat.testBit_two_pow_sub_one, Bool.eq_iff_iff]
  simp only [Bool.and_eq_true, decide_eq_true_eq]
  omega

/-- VBFI takes the bits of the field from a, moved up to its position, and the others from c. -/
theorem fieldInsert_eq_ofFnLE (a c : Word) (pos n : Nat) :
    (c &&& ~~~(BitVec.ofNat 32 ((2 ^ n - 1) * 2 ^ pos))) ||| ((a <<< pos) &&& BitVec.ofNat 32 ((2 ^ n - 1) * 2 ^ pos)) =
      BitVec.ofFnLE fun i : Fin 32 =>
        if pos ≤ i ∧ i < pos + n then a.getLsbD (i - pos) else c.getLsbD i :=
  BitVec.eq_of_getLsbD_eq fun i hi => by
    rw [BitVec.getLsbD_ofFnLE, dif_pos hi, BitVec.getLsbD_or, BitVec.getLsbD_and, BitVec.getLsbD_and,
      BitVec.getLsbD_not, BitVec.getLsbD_shiftLeft, getLsbD_fieldMask pos n i hi]
    by_cases h : pos ≤ i ∧ i < pos + n
    · simp [h, hi, Nat.not_lt.mpr h.1]
    · rw [if_neg h, ← Bool.decide_and, decide_eq_false h]; simp [hi]

end Sys2Proof.Machine
end

section
/-!
SUPPORT. Float values: the order of the model's exact numbers is that of the extended reals, and what a code's sign
bit says (R107, R110, R111).
-/
namespace Sys2Proof.Machine

open Sys2Proof.Claims

theorem isNan_iff {v : FVal} : v.isNan = true ↔ v = .nan := by cases v <;> simp [FVal.isNan]

/-- The denominator of a finite value is not 0, as in the value of every code. -/
def FVal.Proper : FVal → Prop
  | .fin _ _ d _ => 0 < d
  | _ => True

/-- What a code decodes to: a NaN, or a value of its sign bit that is infinite or finite with denominator 1. -/
theorem decode_cases (fm : FloatFmt) (code : Nat) :
    fm.decode code = .nan ∨ fm.decode code = .inf (code.testBit (fm.e + fm.m)) ∨
      ∃ n k, fm.decode code = .fin (code.testBit (fm.e + fm.m)) n 1 k := by
  rw [Nat.testBit_eq_decide_div_mod_eq]
  unfold FloatFmt.decode
  extract_lets neg e m normal
  by_cases h0 : e = 0
  · rw [if_pos h0]; exact .inr (.inr ⟨_, _, rfl⟩)
  · rw [if_neg h0]
    by_cases h1 : e = 2 ^ fm.e - 1
    · rw [if_pos h1]
      cases fm.cls with
      | ieee =>
        by_cases hm : m = 0
        · rw [if_pos hm]; exact .inr (.inl rfl)
        · rw [if_neg hm]; exact .inl rfl
      | oneNan =>
        by_cases hm : m = 2 ^ fm.m - 1
        · rw [if_pos hm]; exact .inl rfl
        · rw [if_neg hm]; exact .inr (.inr ⟨_, _, rfl⟩)
      | finite => exact .inr (.inr ⟨_, _, rfl⟩)
    · rw [if_neg h1]; exact .inr (.inr ⟨_, _, rfl⟩)

theorem decode_proper (fm : FloatFmt) (code : Nat) : (fm.decode code).Proper := by
  obtain h | h | ⟨n, k, h⟩ := decode_cases fm code <;> rw [h]
  · trivial
  · trivial
  · exact Nat.one_pos

/-- The sign of a code that is no NaN is its sign bit. -/
theorem decode_sign {fm : FloatFmt} {code : Nat} (hne : fm.decode code ≠ .nan) :
    (fm.decode code).sign = code.testBit (fm.e + fm.m) := by
  obtain h | h | ⟨n, k, h⟩ := decode_cases fm code
  · exact absurd h hne
  · rw [h]; rfl
  · rw [h]; rfl

/-- The signed numerator of a finite value over a denominator common with another's, in units of 2^q. -/
def FVal.scaled (neg : Bool) (n d' : Nat) (e q : Int) : Int :=
  let x : Int := (n * d' * 2 ^ (e - q).toNat : Nat)
  if neg then -x else x

/-- The exact sum of finite values in units of the lesser exponent (R37). -/
theorem fin_add_fin (m : RMode) (a b : Bool) (n d n' d' : Nat) (e e' : Int) :
    FVal.add m (.fin a n d e) (.fin b n' d' e') =
      let s := FVal.scaled a n d' e (min e e') + FVal.scaled b n' d e' (min e e')
      if s = 0 then .fin (if a = b then a else m.zeroNeg) 0 1 0
      else .fin (s < 0) s.natAbs (d * d') (min e e') := by
  rw [min_def]
  rfl

/-- The exact difference decides the order of finite values. -/
theorem fin_lt_iff_scaled {a b : Bool} {n d n' d' : Nat} {e e' : Int} :
    (FVal.fin a n d e).lt (.fin b n' d' e') = true ↔
      FVal.scaled a n d' e (min e e') < FVal.scaled b n' d e' (min e e') := by
  have difference : FVal.scaled a n d' e (min e e') + FVal.scaled (!b) n' d e' (min e e') =
      FVal.scaled a n d' e (min e e') - FVal.scaled b n' d e' (min e e') := by
    cases b <;> simp [FVal.scaled, sub_eq_add_neg]
  have sum := fin_add_fin .rne a (!b) n d n' d' e e'
  rw [difference] at sum
  rw [FVal.lt, FVal.neg, sum, ← sub_neg]
  generalize FVal.scaled a n d' e (min e e') - FVal.scaled b n' d e' (min e e') = s
  by_cases h : s = 0
  · simp [h]
  · simp [h]

/-- The real value of a finite value. -/
noncomputable def FVal.real (neg : Bool) (n d : Nat) (e : Int) : ℝ :=
  (if neg then -1 else 1) * (n : ℝ) / d * (2 : ℝ) ^ e

theorem floatValue_fin (neg : Bool) (n d : Nat) (e : Int) :
    floatValue (.fin neg n d e) = some (FVal.real neg n d e : EReal) := rfl

theorem floatValue_inf (neg : Bool) : floatValue (.inf neg) = some (if neg then ⊥ else ⊤) := rfl

theorem scaled_eq_real {neg : Bool} {n d d' : Nat} {e q : Int} (hd : 0 < d) (hq : q ≤ e) :
    (FVal.scaled neg n d' e q : ℝ) = FVal.real neg n d e * (d * d' * (2 : ℝ) ^ (-q)) := by
  have hd : (d : ℝ) ≠ 0 := by positivity
  have pow : (2 : ℝ) ^ e * (2 : ℝ) ^ (-q) = 2 ^ (e - q).toNat := by
    rw [← zpow_add₀ two_ne_zero, ← zpow_natCast, Int.toNat_of_nonneg (by omega)]; rfl
  have split_sign : (FVal.scaled neg n d' e q : ℝ) = (if neg then -1 else 1) * n * d' * 2 ^ (e - q).toNat := by
    cases neg <;> simp [FVal.scaled]
  rw [split_sign, ← pow, FVal.real]
  field_simp

theorem fin_lt_iff_real {a b : Bool} {n d n' d' : Nat} {e e' : Int} (hd : 0 < d) (hd' : 0 < d') :
    (FVal.fin a n d e).lt (.fin b n' d' e') = true ↔ FVal.real a n d e < FVal.real b n' d' e' := by
  have unit : (0 : ℝ) < d * d' * (2 : ℝ) ^ (-min e e') := by positivity
  rw [fin_lt_iff_scaled, ← Int.cast_lt (R := ℝ), scaled_eq_real hd (min_le_left _ _),
    scaled_eq_real hd' (min_le_right _ _), mul_comm (d' : ℝ), mul_lt_mul_iff_left₀ unit]

/-- The model's order of two values that are no NaNs is that of their extended reals. -/
theorem lt_iff_floatValue_lt {x y : FVal} (hx : x.Proper) (hy : y.Proper) :
    x.lt y = true ↔ ∃ a b, floatValue x = some a ∧ floatValue y = some b ∧ a < b := by
  match x, y with
  | .nan, _ => simp [FVal.lt, floatValue]
  | .inf _, .nan => simp [FVal.lt, floatValue]
  | .fin .., .nan => simp [FVal.lt, floatValue]
  | .inf a, .inf b => cases a <;> cases b <;> simp [FVal.lt, floatValue]
  | .inf a, .fin b n d e => cases a <;> simp [FVal.lt, floatValue_fin, floatValue_inf]
  | .fin a n d e, .inf b => cases b <;> simp [FVal.lt, floatValue_fin, floatValue_inf]
  | .fin a n d e, .fin b n' d' e' =>
    rw [fin_lt_iff_real hx hy]
    simp only [floatValue_fin, Option.some.injEq, exists_and_left, exists_eq_left', EReal.coe_lt_coe_iff]

/-! ### Minimum, maximum and sign (R110, R111) -/

/-- Every value that is no NaN has its place among the extended reals. -/
theorem exists_floatValue {v : FVal} (h : v ≠ .nan) : ∃ x, floatValue v = some x := by
  cases v with
  | nan => exact absurd rfl h
  | inf neg => exact ⟨_, rfl⟩
  | fin neg n d e => exact ⟨_, rfl⟩

/-- Of two codes that are no NaNs, the model's order is that of their extended reals. -/
theorem decode_lt_eq_decide {fm : FloatFmt} {a b : Nat} {x y : EReal} (hx : floatValue (fm.decode a) = some x)
    (hy : floatValue (fm.decode b) = some y) : (fm.decode a).lt (fm.decode b) = decide (x < y) := by
  rw [Bool.eq_iff_iff, lt_iff_floatValue_lt (decode_proper fm a) (decode_proper fm b), hx, hy]
  simp

theorem minmax_of_nan {fm : FloatFmt} {least : Bool} {a b : Nat} (h : fm.decode a = .nan ∨ fm.decode b = .nan) :
    fm.minmax least a b = fm.nan := by
  rw [FloatFmt.minmax]
  rcases h with h | h <;> simp [h, FVal.isNan]

/-- Which code VFMIN and VFMAX return when neither is a NaN, by their extended reals and, where these are equal, by
their sign bits. -/
theorem minmax_eq {fm : FloatFmt} {a b : Nat} {x y : EReal} (least : Bool)
    (hx : floatValue (fm.decode a) = some x) (hy : floatValue (fm.decode b) = some y) :
    let neg (c : Nat) : Bool := c.testBit (fm.e + fm.m)
    fm.minmax least a b =
      if least then (if y < x ∨ ¬ x < y ∧ neg b ∧ !neg a then b else a)
      else (if x < y ∨ ¬ y < x ∧ neg a ∧ !neg b then b else a) := by
  have ha : fm.decode a ≠ .nan := by rintro h; simp [h, floatValue] at hx
  have hb : fm.decode b ≠ .nan := by rintro h; simp [h, floatValue] at hy
  rw [FloatFmt.minmax, if_neg (by simp [isNan_iff, ha, hb]), decode_lt_eq_decide hx hy, decode_lt_eq_decide hy hx,
    decode_sign ha, decode_sign hb]
  simp [and_assoc]

/-- VFMIN and VFMAX of two codes that are no NaNs return the lesser and the greater. -/
theorem minmax_isExtreme {fm : FloatFmt} {a b : Nat} (least : Bool) (ha : fm.decode a ≠ .nan)
    (hb : fm.decode b ≠ .nan) : IsExtreme fm least a b (fm.minmax least a b) := by
  obtain ⟨x, hx⟩ := exists_floatValue ha
  obtain ⟨y, hy⟩ := exists_floatValue hb
  refine ⟨x, y, hx, hy, ?operand, ?less, ?greater, ?equal⟩ <;> rw [minmax_eq least hx hy]
  case operand => split <;> split <;> simp
  case less => intro h; simp [h, h.not_gt]
  case greater => intro h; simp [h, h.not_gt]
  case equal =>
    rintro rfl signs
    have other : b.testBit (fm.e + fm.m) = !a.testBit (fm.e + fm.m) := Bool.eq_not.mpr signs.symm
    simp only [other]
    cases least <;> cases a.testBit (fm.e + fm.m) <;> simp

/-- What R110 says of VFMIN and VFMAX for any two codes. -/
theorem minmax_spec (fm : FloatFmt) (least : Bool) (a b : Nat) :
    if fm.decode a = .nan ∨ fm.decode b = .nan then fm.minmax least a b = fm.nan
    else IsExtreme fm least a b (fm.minmax least a b) := by
  split
  next h => exact minmax_of_nan h
  next h =>
    obtain ⟨ha, hb⟩ := not_or.mp h
    exact minmax_isExtreme least ha hb

/-- The sign of a code replaced; a NaN becomes the canonical NaN. -/
theorem withSign_eq (fm : FloatFmt) (a : Nat) (neg : Bool) :
    fm.withSign a neg = if fm.decode a = .nan then fm.nan else putSign fm a neg := by
  rw [FloatFmt.withSign, if_congr isNan_iff rfl rfl]
  cases neg <;> simp [FloatFmt.signed, putSign]

/-- A VFP instruction on codes has the result that its element function gives (R110, R111). -/
theorem laneResult_of_vfcode {i : FmtV → Instr} (g : FloatFmt → Nat → Nat → Nat)
    (hi : ∀ f s, exec (i f) s = vfcode f s g) :
    LaneResult i fun f cx l => buildElems f.ty fun e =>
      g (laneFmt f.ty) (elemOf f.ty (f.opA cx l) e) (elemOf f.ty (f.opB cx l) e) :=
  laneResult_of_laneOp hi fun _ _ _ => rfl

/-- A VFP instruction that gives a its sign bit `neg` has the result of R111. -/
theorem laneResult_of_withSign {i : FmtV → Instr} (neg : FloatFmt → Nat → Nat → Bool)
    (hi : ∀ f s, exec (i f) s = vfcode f s fun fm a b => fm.withSign a (neg fm a b)) :
    LaneResult i fun f cx l => buildElems f.ty fun e =>
      let fm := laneFmt f.ty
      let a := elemOf f.ty (f.opA cx l) e
      if fm.decode a = .nan then fm.nan else putSign fm a (neg fm a (elemOf f.ty (f.opB cx l) e)) :=
  laneResult_of_laneOp hi fun _ _ _ => by simp only [withSign_eq]

end Sys2Proof.Machine
end

section
/-!
The lane instructions' obligations, settled from the laws above.
-/
namespace Sys2Proof.Proofs

open Sys2Proof.Machine Sys2Proof.Claims

/-- Settles O5: each instruction is VINT's form with an element function, which is that of the statement for every
width. -/
theorem laneLogicAndShifts : Obligations.LaneLogicAndShifts := by
  have count {w : Nat} (b : BitVec w) (hw : 0 < w) : b.toNat % w < w := Nat.mod_lt _ hw
  unfold Obligations.LaneLogicAndShifts laneLogic
  simp only [List.forall_mem_cons, List.not_mem_nil, false_imp_iff, implies_true, and_true]
  refine ⟨?vand, ?vor, ?vxor, ?vandn, ?vnot, ?vshl, ?vshr, ?vsar, ?vrot, ?vclz, ?vpopc, ?vbrev⟩
  case vand | vor | vxor | vandn | vnot => exact elementResult_of_vint (fun _ _ => rfl) fun _ _ _ _ _ => rfl
  case vshl => exact elementResult_of_vint (fun _ _ => rfl) fun _ a _ _ _ => shiftLeft_eq_ofNat a _
  case vshr => exact elementResult_of_vint (fun _ _ => rfl) fun _ a _ _ _ => ushiftRight_eq_ofNat a _
  case vsar => exact elementResult_of_vint (fun _ _ => rfl) fun _ a _ _ _ => sshiftRight_eq_ofInt a _
  case vrot => exact elementResult_of_vint (fun _ _ => rfl) fun _ a b _ hw => rotateLeft_eq_ofNat a (count b hw)
  case vclz => exact elementResult_of_vint (fun _ _ => rfl) fun _ a _ _ _ => congrArg _ (leadingZeros_eq_sub_size a)
  case vpopc => exact elementResult_of_vint (fun _ _ => rfl) fun _ a _ _ _ => congrArg _ (ones_eq_countP a)
  case vbrev => exact elementResult_of_vint (fun _ _ => rfl) fun _ a _ _ _ => reverse_eq_ofFnLE a

/-- Settles O6: each instruction is the lane form of its value; the fields of VBFX and VBFI are those of the
statement for every position and width. -/
theorem laneFieldsAndMoves : Obligations.LaneFieldsAndMoves := by
  unfold Obligations.LaneFieldsAndMoves laneMoves
  simp only [List.forall_mem_cons, List.not_mem_nil, false_imp_iff, implies_true, and_true]
  refine ⟨?vbfx, ?vbfi, ?vsel, ?vmov⟩
  case vbfx =>
    refine laneResult_of_laneOp (fun _ _ => rfl) fun f cx l => ?_
    simp only [bitField_eq _ _ (Nat.min_le_left 32 _), beq_iff_eq, fieldPos, fieldWidth]
  case vbfi => exact laneResult_of_laneOp (fun _ _ => rfl) fun _ _ _ => fieldInsert_eq_ofFnLE _ _ _ _
  case vsel => exact laneResult_of_laneOp (fun _ _ => rfl) fun _ _ _ => rfl
  case vmov => exact laneResult_of_laneOp (fun _ _ => rfl) fun _ _ _ => rfl

/-- Settles O14: both are VFP's form on codes with the model's minimum and maximum. -/
theorem floatMinMax : Obligations.FloatMinMax := by
  have minimum := laneResult_of_vfcode (i := .vfmin) (fun fm => fm.minmax true) fun _ _ => rfl
  have maximum := laneResult_of_vfcode (i := .vfmax) (fun fm => fm.minmax false) fun _ _ => rfl
  unfold Obligations.FloatMinMax
  rw [List.forall_mem_cons, List.forall_mem_singleton]
  exact ⟨⟨fun fm => fm.minmax true, minimum, fun fm _ a _ b _ => minmax_spec fm true a b⟩,
    ⟨fun fm => fm.minmax false, maximum, fun fm _ a _ b _ => minmax_spec fm false a b⟩⟩

/-- Settles O15: each is VFP's form on codes with a sign bit of its own. -/
theorem floatSigns : Obligations.FloatSigns := by
  have vfabs := laneResult_of_withSign (i := .vfabs) (fun _ _ _ => false) fun _ _ => rfl
  have vfneg := laneResult_of_withSign (i := .vfneg) (fun fm a _ => !a.testBit (fm.e + fm.m)) fun _ _ => rfl
  have vfcpys := laneResult_of_withSign (i := .vfcpys) (fun fm _ b => b.testBit (fm.e + fm.m)) fun _ _ => rfl
  unfold Obligations.FloatSigns signResults
  rw [List.forall_mem_cons, List.forall_mem_cons, List.forall_mem_singleton]
  exact ⟨vfabs, vfneg, vfcpys⟩

/-- Settles O23: bit p of the mask of the participants with a nonzero value is that of the statement. -/
theorem ballot : Obligations.Ballot :=
  crossResult_of_crossOp (fun _ _ => rfl) fun f cx _ _ =>
    BitVec.eq_of_getLsbD_eq fun j hj => by
      rw [BitVec.getLsbD_extractLsb', getLsbD_maskOfLanes_filter, BitVec.getLsbD_ofFnLE, dif_pos hj,
        decide_eq_true hj, Bool.true_and]
      exact congrArg _ (decide_eq_decide.mpr Iff.rfl)

/-- Settles O24: a participant's number is the count of participants below it. -/
theorem compaction : Obligations.Compaction :=
  crossResult_of_crossOp (fun _ _ => rfl) fun f cx l hl => by
    simp only [lanesOf_participants, idxOf_eq_length_filter_lt (pairwise_partsOf f cx) hl]
    rfl

end Sys2Proof.Proofs
end
